-- ==== Sys2Proof/Word.lean ====
section
/-! DEFINITION. The widths of IPJS-CORE (R6: u8, u16, u32; R113: binary64) and the names a command word's
operand byte can give (R62). -/

namespace Sys2Proof

/-- u8 (R6): one byte of the packet buffer. -/
abbrev Byte := BitVec 8

/-- u16 (R6). -/
abbrev Half := BitVec 16

/-- u32 (R6): a bus word, a command word, a 32-bit register. -/
abbrev Word := BitVec 32

/-- The 64-bit pattern of a binary64 value (R113). -/
abbrev Double := BitVec 64

/-- The field selector FSEL (R62): one packet field, or the argument register. Its codes are 0 to 7 in this
order; 8 to 255 name nothing. -/
inductive FSel where
  | temp
  | gyro0
  | gyro1
  | gyro2
  | accel0
  | accel1
  | accel2
  | arg
deriving DecidableEq, Repr

end Sys2Proof
end

