-- ==== Sys2Proof/Syntax.lean ====
section
/-! DEFINITION. The command set (R61): one constructor per row of spec/opcode_table.json. -/

namespace Sys2Proof

/-- A command with its operand (R61). A selector a command's encoding rules out (R64) is caught by
`Instr.wellFormed`. -/
inductive Instr where
  | nop
  | validate
  | crcpkt
  | sealPkt
  | sethdr
  | setseq (imm8 : Byte)
  | cvtt (fsel : FSel)
  | cvtq (fsel : FSel)
  | enct (fsel : FSel)
  | encq (fsel : FSel)
deriving DecidableEq, Repr

end Sys2Proof
end

