-- ==== Sys2Proof/WellFormed.lean ====
section
/-! DEFINITION. Which command terms the encoding admits (R61, R64). -/

namespace Sys2Proof

/-- The selectors of CVTT and ENCT: TEMP and ARG (R61). -/
def FSel.isTempSel : FSel → Bool
  | .temp | .arg => true
  | .gyro0 | .gyro1 | .gyro2 | .accel0 | .accel1 | .accel2 => false

/-- The selectors of CVTQ and ENCQ: GYRO0 to ACCEL2 and ARG (R61). -/
def FSel.isQSel : FSel → Bool
  | .temp => false
  | .gyro0 | .gyro1 | .gyro2 | .accel0 | .accel1 | .accel2 | .arg => true

/-- A command whose operand is in its legal set (R61, R64). -/
def Instr.wellFormed : Instr → Bool
  | .nop | .validate | .crcpkt | .sealPkt | .sethdr | .setseq _ => true
  | .cvtt a => a.isTempSel
  | .cvtq a => a.isQSel
  | .enct a => a.isTempSel
  | .encq a => a.isQSel

end Sys2Proof
end

