-- ==== Sys2Proof/Decode.lean ====
section
/-! DEFINITION. The legality predicate, the decoder and the encoder of command words (R59 to R68). -/

namespace Sys2Proof

/-- OP = w[7:0] (R60). -/
def opField (w : Word) : Byte := w.extractLsb' 0 8

/-- A = w[15:8] (R60). -/
def aField (w : Word) : Byte := w.extractLsb' 8 8

/-- RSVD = w[31:16] (R60). -/
def rsvdField (w : Word) : Half := w.extractLsb' 16 16

/-- The legality predicate of a command word, as R64 writes it. -/
def legal (w : Word) : Bool :=
  let op := opField w
  let a := aField w
  rsvdField w == 0#16 &&
    ((decide (op.toNat ≤ 4) && a == 0#8)
      || op == 0x05#8
      || ((op == 0x10#8 || op == 0x12#8) && (a == 0#8 || a == 7#8))
      || ((op == 0x11#8 || op == 0x13#8) && decide (1 ≤ a.toNat) && decide (a.toNat ≤ 7)))

/-- Why a word is no command (the cases R65 lists). -/
inductive DecodeReject where
  | rsvdNotZero
  | reservedOp
  | operandNotZero
  | selectorOutOfSet
  | selectorUnassigned
deriving DecidableEq, Repr

/-- The selector codes of R62: the whole A field, unsigned. -/
def decodeFSel (a : Byte) : Option FSel :=
  match a.toNat with
  | 0 => some .temp
  | 1 => some .gyro0
  | 2 => some .gyro1
  | 3 => some .gyro2
  | 4 => some .accel0
  | 5 => some .accel1
  | 6 => some .accel2
  | 7 => some .arg
  | _ => none

/-- A command that takes no operand: a nonzero A makes it illegal (R63). -/
def decodePlain (a : Byte) (i : Instr) : Except DecodeReject Instr :=
  if a == 0#8 then .ok i else .error .operandNotZero

/-- A command that takes a selector out of the set `ok` (R61, R62). -/
def decodeSel (a : Byte) (ok : FSel → Bool) (mk : FSel → Instr) : Except DecodeReject Instr :=
  match decodeFSel a with
  | none => .error .selectorUnassigned
  | some f => if ok f then .ok (mk f) else .error .selectorOutOfSet

/-- The opcode map of R61, on the fields OP and A. -/
def decodeFields (op a : Byte) : Except DecodeReject Instr :=
  match op.toNat with
  | 0x00 => decodePlain a .nop
  | 0x01 => decodePlain a .validate
  | 0x02 => decodePlain a .crcpkt
  | 0x03 => decodePlain a .sealPkt
  | 0x04 => decodePlain a .sethdr
  | 0x05 => .ok (.setseq a)
  | 0x10 => decodeSel a FSel.isTempSel .cvtt
  | 0x11 => decodeSel a FSel.isQSel .cvtq
  | 0x12 => decodeSel a FSel.isTempSel .enct
  | 0x13 => decodeSel a FSel.isQSel .encq
  | _ => .error .reservedOp

/-- The decoder: total on 32-bit words (R59: no other length exists). -/
def decode (w : Word) : Except DecodeReject Instr :=
  if rsvdField w == 0#16 then decodeFields (opField w) (aField w) else .error .rsvdNotZero

/-- The code of a selector (R62). -/
def encodeFSel : FSel → Byte
  | .temp => 0#8
  | .gyro0 => 1#8
  | .gyro1 => 2#8
  | .gyro2 => 3#8
  | .accel0 => 4#8
  | .accel1 => 5#8
  | .accel2 => 6#8
  | .arg => 7#8

/-- OP of a command (R61). -/
def encodeOp : Instr → Byte
  | .nop => 0x00#8
  | .validate => 0x01#8
  | .crcpkt => 0x02#8
  | .sealPkt => 0x03#8
  | .sethdr => 0x04#8
  | .setseq _ => 0x05#8
  | .cvtt _ => 0x10#8
  | .cvtq _ => 0x11#8
  | .enct _ => 0x12#8
  | .encq _ => 0x13#8

/-- A of a command (R61 to R63). -/
def encodeA : Instr → Byte
  | .nop | .validate | .crcpkt | .sealPkt | .sethdr => 0x00#8
  | .setseq imm8 => imm8
  | .cvtt a => encodeFSel a
  | .cvtq a => encodeFSel a
  | .enct a => encodeFSel a
  | .encq a => encodeFSel a

/-- The encoder: `RSVD : A : OP` with RSVD zero (R60, R68). -/
def encode (i : Instr) : Word := 0x0000#16 ++ encodeA i ++ encodeOp i

/-- The decoder behind the opcode table's numbering of bits: a command is ONE 32-bit word (R59), and a longer
row is none. The bits above `nbits` are zero. -/
def decodeTableWord (nbits w : Nat) : Option Instr :=
  if nbits ≤ 32 then
    match decode (BitVec.ofNat 32 (w % 2 ^ nbits)) with
    | .ok i => some i
    | .error _ => none
  else none

/-- The assembler's name of a selector (R62, R68). -/
def FSel.name : FSel → String
  | .temp => "TEMP"
  | .gyro0 => "GYRO0"
  | .gyro1 => "GYRO1"
  | .gyro2 => "GYRO2"
  | .accel0 => "ACCEL0"
  | .accel1 => "ACCEL1"
  | .accel2 => "ACCEL2"
  | .arg => "ARG"

/-- The mnemonic of a command (R61). -/
def Instr.mnemonic : Instr → String
  | .nop => "NOP"
  | .validate => "VALIDATE"
  | .crcpkt => "CRCPKT"
  | .sealPkt => "SEAL"
  | .sethdr => "SETHDR"
  | .setseq _ => "SETSEQ"
  | .cvtt _ => "CVTT"
  | .cvtq _ => "CVTQ"
  | .enct _ => "ENCT"
  | .encq _ => "ENCQ"

/-- One hexadecimal digit, as the spec's assembler examples write it. -/
def hexDigit (n : Nat) : String :=
  ["0", "1", "2", "3", "4", "5", "6", "7", "8", "9", "A", "B", "C", "D", "E", "F"].getD (n % 16) "0"

/-- The assembler text of a command (R68): its mnemonic, then its operand if it has one. -/
def Instr.asm (i : Instr) : String :=
  match i with
  | .nop | .validate | .crcpkt | .sealPkt | .sethdr => i.mnemonic
  | .setseq imm8 => i.mnemonic ++ " 0x" ++ hexDigit (imm8.toNat / 16) ++ hexDigit imm8.toNat
  | .cvtt a => i.mnemonic ++ " " ++ a.name
  | .cvtq a => i.mnemonic ++ " " ++ a.name
  | .enct a => i.mnemonic ++ " " ++ a.name
  | .encq a => i.mnemonic ++ " " ++ a.name

end Sys2Proof
end

