-- ==== Sys2Proof/Config.lean ====
section
/-! DEFINITION. The implementation parameters of IPJS-CORE (R5): the constants the spec fixes, and, as opaque
constants that nothing can evaluate, the parameters it leaves open. LATENCY is not here: it is the `agenda` of
State (log 1). CRC_IMPL is not here: no program can observe it (R91, log 13). -/

namespace Sys2Proof.Config

/-- PKT_LEN (R5): the packet buffer is 40 bytes. -/
def pktLen : Nat := 40

/-- CRC_COVER (R5): the packet checksum covers offsets 0 to 35. -/
def crcCover : Nat := 36

/-- MAGIC (R5, R101). -/
def magic : Half := 0x9574#16

/-- POLY (R87), reflected. -/
def poly : Word := 0xEDB88320#32

/-- CRC_INIT (R87). -/
def crcInit : Word := 0xFFFFFFFF#32

/-- CRC_XOROUT (R87). -/
def crcXorOut : Word := 0xFFFFFFFF#32

/-- T_OFFSET (R5, R115): 273.15 K in hundredths of a kelvin. -/
def tempOffset : Nat := 27315

/-- T_SCALE (R5, R115): hundredths per degree. -/
def tempScale : Nat := 100

/-- Q_FRAC (R5, R118): 2^16. -/
def qScale : Nat := 65536

/-- The window's size in bytes (R35). -/
def windowSize : Nat := 128

/-- OPEN parameter behind BASE (R35): which 128-byte window of the bus the platform gives the block. Log 3. -/
opaque windowIndex : Nat

/-- BASE (R35): a multiple of 128. -/
def base : Nat := windowSize * windowIndex

/-- The 14 conditions named in statusFlags (R110). -/
inductive StatusFlag where
  | generalError
  | thermostatNotReady
  | gyroNotReady
  | overVoltage
  | underVoltage
  | overTemperature
  | underTemperature
  | ppsNotLocked
  | gyroOutOfRange (axis : Fin 3)
  | accelOutOfRange (axis : Fin 3)
deriving DecidableEq, Repr

/-- The model's numbering of the 14 names. It is not a bit position: `statusFlagPerm` makes it one. -/
def StatusFlag.index : StatusFlag → Fin 16
  | .generalError => 0
  | .thermostatNotReady => 1
  | .gyroNotReady => 2
  | .overVoltage => 3
  | .underVoltage => 4
  | .overTemperature => 5
  | .underTemperature => 6
  | .ppsNotLocked => 7
  | .gyroOutOfRange a => ⟨8 + a.val, by omega⟩
  | .accelOutOfRange a => ⟨11 + a.val, by omega⟩

/-- OPEN parameter behind STATUS_FLAG_POS (R110): an uninterpreted rearrangement of the 16 bit positions.
Every injective map from 14 names into 0..15 extends to one. Log 12. -/
opaque statusFlagPerm : Equiv.Perm (Fin 16)

/-- STATUS_FLAG_POS (R110): the bit of statusFlags that holds a named condition. -/
def statusFlagPos (f : StatusFlag) : Fin 16 := statusFlagPerm f.index

/-- The two positions STATUS_FLAG_POS leaves out: the reserved bits of statusFlags (R110). -/
def statusFlagReserved : List (Fin 16) := [statusFlagPerm 14, statusFlagPerm 15]

end Sys2Proof.Config
end

