-- ==== Sys2Proof/Machine/State.lean ====
section
/-! DEFINITION. The complete state of IPJS-CORE (R15), its reset value (R147), and the reasons a step can stop.
Two fields are the model's own: `agenda` and `answer`. -/

namespace Sys2Proof.Machine

/-- The width of a bus access (R38): 1, 2 or 4 bytes, and no other. -/
inductive Width where
  | w1
  | w2
  | w4
deriving DecidableEq, Repr

/-- A bus operation of the host (R8, R69) at some address: `MemRead` or `MemWrite` of a width. A write carries the
32 data lanes; a narrow write uses the low ones. -/
inductive BusOp where
  | read (n : Width)
  | write (n : Width) (v : Word)
deriving DecidableEq, Repr

/-- What moves next (R10): the host with one access at a bus address, the block's turn (its completion step, if
one is enabled), or a reset event (R147). -/
inductive Event where
  | bus (addr : Nat) (op : BusOp)
  | block
  | reset
deriving DecidableEq, Repr

/-- The packet buffer: the bytes that are written, by offset (R16, R17). A byte that is not listed is unwritten and
has no value. Canonical form: `Memory.wf`. -/
abbrev Memory := List Host.Cell

/-- The canonical form: offsets strictly rising, all inside the 40-byte buffer (R16). Every unlisted byte reads as
no value, so no listed entry can equal it. -/
abbrev Memory.wf (m : Memory) : Prop :=
  m.Pairwise (fun a b => a.1 < b.1) ∧ ∀ c ∈ m, c.1 < Config.pktLen

/-- ValidationResult (R28, R105). -/
inductive VRes where
  | ok
  | badHeader
  | badSequencer
  | badCrc
deriving DecidableEq, Repr

/-- STATUS (R25), field by field; its reserved bits are hardwired to 0 and supplied by `statusValue`. -/
structure Status where
  busy : Bool
  done : Bool
  vres : VRes
  vvalid : Bool
  errIll : Bool
  errBusy : Bool
  errAcc : Bool
  range : Bool
deriving DecidableEq, Repr

/-- CTRL (R30): bit 0 is IE, the rest is hardwired to 0. -/
structure Ctrl where
  ie : Bool
deriving DecidableEq, Repr

/-- The state of R15, and the model's own `agenda` (what moves next, log 1) and `answer` (what the last step
returned to a host read, log 6). CRC_OUT, irq and T are not storage (R19, R32, R33). -/
structure State where
  pkt : Memory
  crcAcc : Word
  pcrc : Word
  iarg : Word
  ires : Word
  farg : Double
  fres : Double
  status : Status
  ctrl : Ctrl
  pend : Word
  agenda : List Event
  answer : Option Word
deriving DecidableEq, Repr

/-- Why a step has no successor. -/
inductive Fault where
  /-- A host read, or a command at its completion step, reads a packet byte that nothing has written (R17, R74,
  R84). Safe: the hardware returns some value there, and the model gives it none. -/
  | unwrittenRead (off : Nat)
deriving DecidableEq, Repr

/-- Why a step has no meaning. -/
inductive Refusal where
  /-- Raised by `exec`'s arm of an instruction that has no meaning yet. Safe. No arm raises it. -/
  | notModelled (mnemonic : String)
  /-- Raised by CVTT, CVTQ, ENCT and ENCQ for a selector outside the command's legal set (R64), which no word
  decodes to. Safe: R65 says that such a command never executes (log 14). -/
  | illegalSelector (mnemonic : String)
  /-- Raised by the completion step when PEND holds an illegal word. Safe: CMD loads PEND with legal words only
  (R81), so no run from reset meets it (log 15). -/
  | illegalPending
deriving DecidableEq, Repr

/-- STATUS = 0x00000000 (R147). -/
def Status.reset : Status where
  busy := false
  done := false
  vres := .ok
  vvalid := false
  errIll := false
  errBusy := false
  errAcc := false
  range := false

/-- The state after a reset event, which is also the initial state (R15, R147, R158). PEND is meaningless there
and is given 0 (DESIGN CHOICE, log 5). The agenda is empty and nothing has been answered (log 1, log 6). -/
def State.reset : State where
  pkt := []
  crcAcc := 0xFFFFFFFF#32
  pcrc := 0x00000000#32
  iarg := 0x00000000#32
  ires := 0x00000000#32
  farg := 0x0000000000000000#64
  fres := 0x0000000000000000#64
  status := Status.reset
  ctrl := { ie := false }
  pend := 0x00000000#32
  agenda := []
  answer := none

end Sys2Proof.Machine
end

