-- ==== Sys2Proof/Machine/Ops.lean ====
section
/-! DEFINITION. The named operations over the packet buffer and the registers (R7, R16, R17, R107), the error
primitive (R132) and the reset event (R147). IPJS-CORE has no exception entry and no return from one (R142): what
stands in their place is `raiseErr`. -/

namespace Sys2Proof.Machine

/-- The outcomes of a step of this machine. -/
abbrev Result := Host.Outcome State Fault Refusal

/-- The number of bytes an access moves (R38). -/
def Width.bytes : Width → Nat
  | .w1 => 1
  | .w2 => 2
  | .w4 => 4

/-- PKT[off], if it is written. -/
def Memory.byte? : Memory → Nat → Option Byte
  | [], _ => none
  | (a, b) :: m, off => if a = off then some b else Memory.byte? m off

/-- `PKT[off] <- b; written[off] <- true`, keeping the canonical form. -/
def Memory.put : Memory → Nat → Byte → Memory
  | [], off, b => [(off, b)]
  | (a, c) :: m, off, b =>
    if off < a then (off, b) :: (a, c) :: m
    else if off = a then (off, b) :: m
    else (a, c) :: Memory.put m off b

/-- Consecutive bytes written from `off` on, in order of increasing offset. -/
def Memory.puts : Memory → Nat → List Byte → Memory
  | m, _, [] => m
  | m, off, b :: bs => Memory.puts (m.put off b) (off + 1) bs

/-- PKT[off], or the model fault UnwrittenRead(off) (R17). -/
def Memory.readByte (m : Memory) (off : Nat) : Except Fault Byte :=
  match m.byte? off with
  | some b => .ok b
  | none => .error (.unwrittenRead off)

/-- PKT[off .. off+n-1] in order of increasing offset; the fault names the lowest unwritten one (log 7). -/
def Memory.readBytes (m : Memory) (off : Nat) : Nat → Except Fault (List Byte)
  | 0 => .ok []
  | n + 1 =>
    match m.readByte off with
    | .error f => .error f
    | .ok b =>
      match Memory.readBytes m (off + 1) n with
      | .error f => .error f
      | .ok bs => .ok (b :: bs)

/-- The little-endian value of a byte sequence: byte k counts 2^(8k) (R7, R39). -/
def leValue : List Byte → Nat
  | [] => 0
  | b :: bs => b.toNat + 256 * leValue bs

/-- The n low bytes of v, byte k being v[8k+7:8k] (R7, R39). -/
def leBytes {w : Nat} : Nat → BitVec w → List Byte
  | 0, _ => []
  | n + 1, v => v.setWidth 8 :: leBytes n (v >>> 8)

/-- le16(i) (R7). -/
def Memory.le16 (m : Memory) (i : Nat) : Except Fault Half :=
  match m.readBytes i 2 with
  | .error f => .error f
  | .ok bs => .ok (BitVec.ofNat 16 (leValue bs))

/-- le32(i) (R7). -/
def Memory.le32 (m : Memory) (i : Nat) : Except Fault Word :=
  match m.readBytes i 4 with
  | .error f => .error f
  | .ok bs => .ok (BitVec.ofNat 32 (leValue bs))

/-- A write of consecutive bytes into PKTBUF by the host or a command: the bytes become written and VVALID is
cleared (R17, R73, R107). -/
def pktPut (off : Nat) (bs : List Byte) (s : State) : State :=
  { s with pkt := s.pkt.puts off bs, status := { s.status with vvalid := false } }

/-- The four sticky error flags (R29, R133). -/
inductive ErrFlag where
  | errIll
  | errBusy
  | errAcc
  | range
deriving DecidableEq, Repr

/-- The flag's bit of STATUS (R133: the code of an error). -/
def ErrFlag.bit : ErrFlag → Nat
  | .errIll => 8
  | .errBusy => 9
  | .errAcc => 10
  | .range => 11

/-- `STATUS.F <- 1`. -/
def Status.raise (st : Status) : ErrFlag → Status
  | .errIll => { st with errIll := true }
  | .errBusy => { st with errBusy := true }
  | .errAcc => { st with errAcc := true }
  | .range => { st with range := true }

/-- `STATUS.F`. -/
def Status.flag (st : Status) : ErrFlag → Bool
  | .errIll => st.errIll
  | .errBusy => st.errBusy
  | .errAcc => st.errAcc
  | .range => st.range

/-- `raise Err(F)` (R132): sets the sticky flag and changes nothing else. -/
def raiseErr (f : ErrFlag) (s : State) : State := { s with status := s.status.raise f }

/-- Reset() (R147), with what the host still has to do left in the agenda (log 8). -/
def resetEvent (s : State) : State := { State.reset with agenda := s.agenda }

/-- One turn taken from the agenda: what remains is `rest`, and nothing is driven on the read lanes yet. -/
def takeTurn (rest : List Event) (s : State) : State := { s with agenda := rest, answer := none }

/-- The value a host read returns (R71). -/
def answerWith (v : Word) (s : State) : State := { s with answer := some v }

/-- A meaning that needs what a read of PKTBUF gives: the read's fault is the step's (R84). -/
def withRead {α : Type} (r : Except Fault α) (k : α → Result) : Result :=
  match r with
  | .ok a => k a
  | .error f => .fault f

end Sys2Proof.Machine
end

