-- ==== Sys2Proof/Machine/Control.lean ====
section
/-! DEFINITION. NOP (R66, R82). -/

namespace Sys2Proof.Machine

/-- NOP (R82): at the completion step it does nothing. -/
def execNop (s : State) : Result := .next s

end Sys2Proof.Machine
end

