-- ==== Sys2Proof/Machine/Binary64.lean ====
section
/-! DEFINITION. binary64 (R9, R113) over exact rational numbers: what a finite pattern denotes, the one correctly
rounded conversion rne64, and the rounding rha of the encoders. -/

namespace Sys2Proof.Machine

/-- The exact rational number num / den (den > 0 wherever the model makes one). -/
structure Frac where
  num : Int
  den : Nat
deriving DecidableEq, Repr

/-- The sign bit 63 (R113). -/
def signBit (d : Double) : Bool := d.getLsbD 63

/-- The biased exponent, bits 62:52 (R113). -/
def expBits (d : Double) : Nat := (d.extractLsb' 52 11).toNat

/-- The fraction, bits 51:0 (R113). -/
def fracBits (d : Double) : Nat := (d.extractLsb' 0 52).toNat

/-- isNaN(d) (R9): exponent all ones, fraction not zero. -/
def isNaN (d : Double) : Bool := expBits d == 2047 && fracBits d != 0

/-- isInf(d) (R9): exponent all ones, fraction zero. -/
def isInf (d : Double) : Bool := expBits d == 2047 && fracBits d == 0

/-- +infinity. -/
def posInf : Double := 0x7FF0000000000000#64

/-- -infinity. -/
def negInf : Double := 0xFFF0000000000000#64

/-- The significand of a finite pattern: the fraction, with the hidden bit unless the pattern is subnormal or
zero. -/
def significand (d : Double) : Nat :=
  if expBits d = 0 then fracBits d else fracBits d + 2 ^ 52

/-- The exponent of the significand's last bit, plus 1074: real(d) = ± significand * 2^(scale - 1074). -/
def scale (d : Double) : Nat := expBits d - 1

/-- real(d) (R9), for finite d, as an exact fraction. -/
def real (d : Double) : Frac :=
  let m : Int := significand d
  { num := (if signBit d then -m else m) * 2 ^ (scale d - 1074)
    den := 2 ^ (1074 - scale d) }

/-- n / d rounded to the nearest natural number, ties to even. -/
def rneDiv (n d : Nat) : Nat :=
  let q := n / d
  let r := n % d
  if 2 * r < d then q else if d < 2 * r then q + 1 else q + q % 2

/-- floor(log2(n / d)) for n, d > 0. -/
def floorLog2 (n d : Nat) : Int :=
  let a := n.log2
  let b := d.log2
  if d * 2 ^ (a - b) ≤ n * 2 ^ (b - a) then (a : Int) - b else (a : Int) - b - 1

/-- The binary64 pattern, without its sign, nearest to n / d (n, d > 0), ties to even. The exponent is that of
n / d, or the smallest one; a significand that rounds up to 2^53 carries into the exponent field, and a pattern past
the largest finite one is infinity. -/
def roundMagnitude (n d : Nat) : Nat :=
  let e := max (floorLog2 n d) (-1022)
  let lo := e - 52
  let m := rneDiv (n * 2 ^ (-lo).toNat) (d * 2 ^ lo.toNat)
  min ((e + 1022).toNat * 2 ^ 52 + m) (2047 * 2 ^ 52)

/-- rne64(x) (R9): an exact zero gives +0.0. -/
def rne64 (x : Frac) : Double :=
  if x.num = 0 then 0#64
  else if x.num < 0 then 0x8000000000000000#64 ||| BitVec.ofNat 64 (roundMagnitude x.num.natAbs x.den)
  else BitVec.ofNat 64 (roundMagnitude x.num.natAbs x.den)

/-- rha(x) = sign(x) * floor(|x| + 1/2) (R9). -/
def rha (x : Frac) : Int :=
  let m : Int := ((2 * x.num.natAbs + x.den) / (2 * x.den) : Nat)
  if x.num < 0 then -m else m

end Sys2Proof.Machine
end

