-- ==== Sys2Proof/Machine/Operands.lean ====
section
/-! DEFINITION. The packet fields of R44 and every operand form of the commands (R62, R63, R114, R117, R127). -/

namespace Sys2Proof.Machine

/-- s32(v) (R6): the two's complement value of a 32-bit pattern. -/
def s32 (v : Word) : Int := v.toInt

/-- header, offset 0 (R44). -/
def Memory.header (m : Memory) : Except Fault Half := m.le16 0

/-- sequencer, offset 2 (R44). -/
def Memory.sequencer (m : Memory) : Except Fault Byte := m.readByte 2

/-- complementSequencer, offset 3 (R44). -/
def Memory.complementSequencer (m : Memory) : Except Fault Byte := m.readByte 3

/-- multiplexedHeader, offset 4, the raw view only (R44, R111). -/
def Memory.multiplexedHeader (m : Memory) : Except Fault Word := m.le32 4

/-- statusFlags, offset 8 (R44, R110). -/
def Memory.statusFlags (m : Memory) : Except Fault Half := m.le16 8

/-- One named condition of statusFlags, at the position STATUS_FLAG_POS gives it (R110). No command reads it. -/
def Memory.statusFlag (m : Memory) (f : Config.StatusFlag) : Except Fault Bool :=
  match m.statusFlags with
  | .error e => .error e
  | .ok v => .ok (v.getLsbD (Config.statusFlagPos f).val)

/-- temperature, offset 10 (R44). -/
def Memory.temperature (m : Memory) : Except Fault Half := m.le16 10

/-- gyro[axis], offset 12 + 4*axis (R44). -/
def Memory.gyro (m : Memory) (axis : Fin 3) : Except Fault Word := m.le32 (12 + 4 * axis.val)

/-- accel[axis], offset 24 + 4*axis (R44). -/
def Memory.accel (m : Memory) (axis : Fin 3) : Except Fault Word := m.le32 (24 + 4 * axis.val)

/-- crc32, offset 36 (R44). -/
def Memory.crc32Field (m : Memory) : Except Fault Word := m.le32 36

/-- qoff(FSEL) (R62): where a gyro or accel field lies, for FSEL 1 to 6. -/
def qoff : FSel → Option Nat
  | .gyro0 => some 12
  | .gyro1 => some 16
  | .gyro2 => some 20
  | .accel0 => some 24
  | .accel1 => some 28
  | .accel2 => some 32
  | .temp | .arg => none

/-- tempIn(a) (R114): the packet's temperature, or IARG[15:0]. -/
def tempIn (s : State) : FSel → Except Fault Half
  | .arg => .ok (s.iarg.setWidth 16)
  | _ => s.pkt.temperature

/-- The 32-bit pattern behind qIn(a) (R117): a gyro or accel field, or IARG. -/
def qIn (s : State) (a : FSel) : Except Fault Word :=
  match qoff a with
  | some off => s.pkt.le32 off
  | none => .ok s.iarg

/-- Where ENCT also stores (R122, R127): the temperature field for TEMP, nowhere for ARG. -/
def putTemp (a : FSel) (r : Half) (s : State) : State :=
  match a with
  | .temp => pktPut 10 (leBytes 2 r) s
  | _ => s

/-- Where ENCQ also stores (R124, R127): the selected field for FSEL 1 to 6, nowhere for ARG. -/
def putQ (a : FSel) (r : Word) (s : State) : State :=
  match qoff a with
  | some off => pktPut off (leBytes 4 r) s
  | none => s

end Sys2Proof.Machine
end

