-- ==== Sys2Proof/Machine/Convert.lean ====
section
/-! DEFINITION. The conversions (R114 to R127): CVTT, CVTQ, ENCT and ENCQ. -/

namespace Sys2Proof.Machine

/-- The exact temperature (t - 27315) / 100 (R115). -/
def exactCelsius (t : Half) : Frac :=
  { num := (t.toNat : Int) - Config.tempOffset, den := Config.tempScale }

/-- celsius(t) (R115): one rounding of the exact value. -/
def celsius (t : Half) : Double := rne64 (exactCelsius t)

/-- The exact Q15.16 value q / 65536 (R118). -/
def exactQ (q : Int) : Frac := { num := q, den := Config.qScale }

/-- q16(q) (R118). -/
def q16 (q : Int) : Double := rne64 (exactQ q)

/-- The exact argument 100 * real(d) + 27315 of ENCT's rounding (R121). -/
def tempArg (d : Double) : Frac :=
  { num := Config.tempScale * (real d).num + Config.tempOffset * (real d).den, den := (real d).den }

/-- The exact argument real(d) * 65536 of ENCQ's rounding (R123). -/
def qArg (d : Double) : Frac := { num := (real d).num * Config.qScale, den := (real d).den }

/-- enc_temp(d) (R121): the raw value, and whether it was out of range. -/
def encTemp (d : Double) : Half × Bool :=
  if isNaN d then (0x0000#16, true)
  else if d = posInf then (0xFFFF#16, true)
  else if d = negInf then (0x0000#16, true)
  else
    let x := rha (tempArg d)
    if x < 0 then (0x0000#16, true)
    else if 65535 < x then (0xFFFF#16, true)
    else (BitVec.ofInt 16 x, false)

/-- enc_q(d) (R123): the s32 pattern, and whether it was out of range. -/
def encQ (d : Double) : Word × Bool :=
  if isNaN d then (0x00000000#32, true)
  else if d = posInf then (0x7FFFFFFF#32, true)
  else if d = negInf then (0x80000000#32, true)
  else
    let x := rha (qArg d)
    if 2 ^ 31 - 1 < x then (0x7FFFFFFF#32, true)
    else if x < -2 ^ 31 then (0x80000000#32, true)
    else (BitVec.ofInt 32 x, false)

/-- `if f = 1: raise Err(RANGE)` (R122, R124, R137). -/
def raiseRangeIf (f : Bool) (s : State) : State := if f then raiseErr .range s else s

/-- CVTT a (R116). -/
def execCvtt (a : FSel) (s : State) : Result :=
  if a.isTempSel then withRead (tempIn s a) fun t => .next { s with fres := celsius t }
  else .refused (.illegalSelector "CVTT")

/-- CVTQ a (R119). -/
def execCvtq (a : FSel) (s : State) : Result :=
  if a.isQSel then withRead (qIn s a) fun q => .next { s with fres := q16 (s32 q) }
  else .refused (.illegalSelector "CVTQ")

/-- ENCT a (R122). -/
def execEnct (a : FSel) (s : State) : Result :=
  if a.isTempSel then
    let rf := encTemp s.farg
    .next (raiseRangeIf rf.2 (putTemp a rf.1 { s with ires := rf.1.setWidth 32 }))
  else .refused (.illegalSelector "ENCT")

/-- ENCQ a (R124). -/
def execEncq (a : FSel) (s : State) : Result :=
  if a.isQSel then
    let rf := encQ s.farg
    .next (raiseRangeIf rf.2 (putQ a rf.1 { s with ires := rf.1 }))
  else .refused (.illegalSelector "ENCQ")

end Sys2Proof.Machine
end

