-- ==== Sys2Proof/Machine/Crc.lean ====
section
/-! DEFINITION. The CRC engine (R87 to R91, R93 to R95), CRCPKT (R96) and SEAL (R97). -/

namespace Sys2Proof.Machine

/-- One of the eight iterations of R88. -/
def crcShift (c : Word) : Word :=
  if c.getLsbD 0 then (c >>> 1) ^^^ Config.poly else c >>> 1

/-- n iterations. -/
def crcShifts : Nat → Word → Word
  | 0, c => c
  | n + 1, c => crcShifts n (crcShift c)

/-- upd(c, b) (R88). -/
def upd (c : Word) (b : Byte) : Word := crcShifts 8 (c ^^^ b.setWidth 32)

/-- run(c, bytes) (R88), in order of increasing index. -/
def crcRun : Word → List Byte → Word
  | c, [] => c
  | c, b :: bs => crcRun (upd c b) bs

/-- CRC32(data) (R90). -/
def crc32 (data : List Byte) : Word := crcRun Config.crcInit data ^^^ Config.crcXorOut

/-- T[i] (R32, R89): the bitwise result for the byte i from register 0. -/
def crcTable (i : Byte) : Word := upd 0x00000000#32 i

/-- updT(c, b) (R89), the table-driven form. No step uses it (R91, log 13). -/
def updT (c : Word) (b : Byte) : Word :=
  crcTable ((c ^^^ b.setWidth 32).setWidth 8) ^^^ (c >>> 8)

/-- A read of CRC_OUT (R19, R94). -/
def crcOut (s : State) : Word := s.crcAcc ^^^ 0xFFFFFFFF#32

/-- CRC32(PKT[0], ..., PKT[35]) (R47, R96). -/
def Memory.packetCrc (m : Memory) : Except Fault Word :=
  match m.readBytes 0 Config.crcCover with
  | .error f => .error f
  | .ok bs => .ok (crc32 bs)

/-- CRCPKT (R96). -/
def execCrcpkt (s : State) : Result :=
  withRead s.pkt.packetCrc fun c => .next { s with pcrc := c }

/-- SEAL (R97). -/
def execSeal (s : State) : Result :=
  withRead s.pkt.packetCrc fun c => .next { pktPut 36 (leBytes 4 c) s with pcrc := c }

end Sys2Proof.Machine
end

