-- ==== Sys2Proof/Machine/Flags.lean ====
section
/-! DEFINITION. STATUS, CTRL and irq as the host sees them (R25 to R30, R33, R75 to R77), and the two status
updates of a command's life (R81, R84). -/

namespace Sys2Proof.Machine

/-- The two-bit code of a validation result (R28). -/
def VRes.code : VRes → BitVec 2
  | .ok => 0#2
  | .badHeader => 1#2
  | .badSequencer => 2#2
  | .badCrc => 3#2

/-- A one-bit field as a word. -/
def bit (b : Bool) : Word := (BitVec.ofBool b).setWidth 32

/-- StatusValue() (R75); bits 7:5 and 31:12 read 0. -/
def statusValue (st : Status) : Word :=
  bit st.busy ||| bit st.done <<< 1 ||| st.vres.code.setWidth 32 <<< 2 ||| bit st.vvalid <<< 4
    ||| bit st.errIll <<< 8 ||| bit st.errBusy <<< 9 ||| bit st.errAcc <<< 10 ||| bit st.range <<< 11

/-- StatusWrite(v) (R76): write 1 to clear DONE and the four error flags; BUSY, VRES and VVALID are read-only. -/
def Status.write (st : Status) (v : Word) : Status :=
  { st with
    done := st.done && !v.getLsbD 1
    errIll := st.errIll && !v.getLsbD 8
    errBusy := st.errBusy && !v.getLsbD 9
    errAcc := st.errAcc && !v.getLsbD 10
    range := st.range && !v.getLsbD 11 }

/-- A read of CTRL (R77). -/
def ctrlValue (c : Ctrl) : Word := bit c.ie

/-- CtrlWrite(v) (R77): only bit 0 is stored. -/
def Ctrl.write (_ : Ctrl) (v : Word) : Ctrl := { ie := v.getLsbD 0 }

/-- irq (R33, R143): a level, derived from the state after every step. -/
def irq (s : State) : Bool := s.ctrl.ie && s.status.done

/-- The end of a command (R84): `STATUS.BUSY <- 0; STATUS.DONE <- 1`. That PEND keeps the completed command's word is
the model's own (DESIGN CHOICE, log 21): while BUSY = 0 it may hold any value (R31, S7). -/
def finish (s : State) : State := { s with status := { s.status with busy := false, done := true } }

/-- VALIDATE's verdict (R104): `STATUS.VRES <- r; STATUS.VVALID <- 1`. -/
def setVerdict (r : VRes) (s : State) : State :=
  { s with status := { s.status with vres := r, vvalid := true } }

end Sys2Proof.Machine
end

