-- ==== Sys2Proof/Machine/Validate.lean ====
section
/-! DEFINITION. The three checks (R101 to R103), VALIDATE (R104), SETHDR (R108) and SETSEQ (R109). -/

namespace Sys2Proof.Machine

/-- hdrOK (R101): reads PKT[0..1] only. -/
def Memory.hdrOK (m : Memory) : Except Fault Bool :=
  match m.header with
  | .error f => .error f
  | .ok h => .ok (h == Config.magic)

/-- seqOK (R102): reads PKT[2..3] only. -/
def Memory.seqOK (m : Memory) : Except Fault Bool :=
  match m.sequencer with
  | .error f => .error f
  | .ok q =>
    match m.complementSequencer with
    | .error f => .error f
    | .ok c => .ok (c == ~~~q)

/-- The CRC stage (R103, R104): the computed checksum, and whether the crc32 field holds it. -/
def Memory.crcStage (m : Memory) : Except Fault (Word × Bool) :=
  match m.packetCrc with
  | .error f => .error f
  | .ok c =>
    match m.crc32Field with
    | .error f => .error f
    | .ok field => .ok (c, field == c)

/-- The three checks in their order, the first failure deciding (R104, R140): the result, and the checksum if the
CRC stage ran (R98, R106). -/
def Memory.classify (m : Memory) : Except Fault (VRes × Option Word) :=
  match m.hdrOK with
  | .error f => .error f
  | .ok false => .ok (.badHeader, none)
  | .ok true =>
    match m.seqOK with
    | .error f => .error f
    | .ok false => .ok (.badSequencer, none)
    | .ok true =>
      match m.crcStage with
      | .error f => .error f
      | .ok (c, true) => .ok (.ok, some c)
      | .ok (c, false) => .ok (.badCrc, some c)

/-- VALIDATE (R104). -/
def execValidate (s : State) : Result :=
  withRead s.pkt.classify fun p => .next (setVerdict p.1 { s with pcrc := p.2.getD s.pcrc })

/-- SETHDR (R108): put16(0, 0x9574). -/
def execSethdr (s : State) : Result := .next (pktPut 0 (leBytes 2 Config.magic) s)

/-- SETSEQ imm8 (R109): the sequencer and its complement. -/
def execSetseq (imm8 : Byte) (s : State) : Result := .next (pktPut 2 [imm8, ~~~imm8] s)

end Sys2Proof.Machine
end

