-- ==== Sys2Proof/Machine/Dispatch.lean ====
section
/-! DEFINITION. Exec(op, a) (R84): what a command does inside its completion step, before BUSY and DONE change. -/

namespace Sys2Proof.Machine

def exec (i : Instr) (s : State) : Host.Outcome State Fault Refusal :=
  match i with
  | .nop => Sys2Proof.Machine.execNop s
  | .validate => Sys2Proof.Machine.execValidate s
  | .crcpkt => Sys2Proof.Machine.execCrcpkt s
  | .sealPkt => Sys2Proof.Machine.execSeal s
  | .sethdr => Sys2Proof.Machine.execSethdr s
  | .setseq imm8 => Sys2Proof.Machine.execSetseq imm8 s
  | .cvtt fsel => Sys2Proof.Machine.execCvtt fsel s
  | .cvtq fsel => Sys2Proof.Machine.execCvtq fsel s
  | .enct fsel => Sys2Proof.Machine.execEnct fsel s
  | .encq fsel => Sys2Proof.Machine.execEncq fsel s

end Sys2Proof.Machine
end

