-- ==== Sys2Proof/Machine/HostAccess.lean ====
section
/-! DEFINITION. What each host read and write of the window does (R35 to R43, R71 to R81, R92 to R94). -/

namespace Sys2Proof.Machine

/-- The direction of an access (R37). -/
inductive Dir where
  | read
  | write
deriving DecidableEq, Repr

/-- accOK(off, n, dir) (R37). -/
def accOK (off : Nat) (n : Width) (dir : Dir) : Bool :=
  off % n.bytes == 0 &&
    (decide (off + n.bytes ≤ 0x28)
      || (dir == .write && decide (0x44 ≤ off) && decide (off + n.bytes ≤ 0x48))
      || (n == .w4 && off == 0x30 && dir == .write)
      || (n == .w4 && [0x34, 0x38, 0x40, 0x50, 0x58, 0x5C].contains off)
      || (n == .w4 && [0x48, 0x4C, 0x54, 0x60, 0x64].contains off && dir == .read))

/-- PktRead(off, n) (R74), zero-extended. -/
def pktRead (off : Nat) (n : Width) (s : State) : Except Fault Word :=
  match s.pkt.readBytes off n.bytes with
  | .error f => .error f
  | .ok bs => .ok (BitVec.ofNat 32 (leValue bs))

/-- DataRead(off) (R79) and the other register reads of R71. -/
def regRead (off : Nat) (s : State) : Word :=
  match off with
  | 0x34 => statusValue s.status
  | 0x38 => ctrlValue s.ctrl
  | 0x40 => s.crcAcc
  | 0x48 => crcOut s
  | 0x4C => s.pcrc
  | 0x50 => s.iarg
  | 0x54 => s.ires
  | 0x58 => s.farg.extractLsb' 0 32
  | 0x5C => s.farg.extractLsb' 32 32
  | 0x60 => s.fres.extractLsb' 0 32
  | 0x64 => s.fres.extractLsb' 32 32
  | _ => 0x00000000#32

/-- HostRead(off, n) (R71): the value returned stands in `answer`. -/
def hostRead (off : Nat) (n : Width) (s : State) : Result :=
  if accOK off n .read then
    if off + n.bytes ≤ 0x28 then withRead (pktRead off n s) fun v => .next (answerWith v s)
    else .next (answerWith (regRead off s) s)
  else .next (answerWith 0x00000000#32 (raiseErr .errAcc s))

/-- The busy guard (R80, R135): while BUSY = 1 a guarded write is dropped and raises ERR_BUSY. -/
def busyGuard (effect : State → State) (s : State) : State :=
  if s.status.busy then raiseErr .errBusy s else effect s

/-- PktWrite(off, n, v) (R73). -/
def pktWrite (off : Nat) (n : Width) (v : Word) (s : State) : State :=
  busyGuard (pktPut off (leBytes n.bytes v)) s

/-- CrcDataWrite(off, n, v) (R93): low byte first; the offset does not matter. -/
def crcDataWrite (n : Width) (v : Word) (s : State) : State :=
  { s with crcAcc := crcRun s.crcAcc (leBytes n.bytes v) }

/-- An illegal word written to CMD while BUSY = 0 (R81, R136): ERR_ILL and DONE, nothing else. -/
def rejectCommand (s : State) : State :=
  { s with status := { s.status with errIll := true, done := true } }

/-- The acceptance of a legal word (R81): `PEND <- w; STATUS.BUSY <- 1`. -/
def acceptCommand (w : Word) (s : State) : State :=
  { s with pend := w, status := { s.status with busy := true } }

/-- CmdWrite(w) (R81). -/
def cmdWrite (w : Word) (s : State) : State :=
  busyGuard (fun s => if legal w then acceptCommand w s else rejectCommand s) s

/-- FARG with its low half replaced (R78). -/
def setLow (d : Double) (v : Word) : Double := d.extractLsb' 32 32 ++ v

/-- FARG with its high half replaced (R78). -/
def setHigh (d : Double) (v : Word) : Double := v ++ d.extractLsb' 0 32

/-- DataWrite(off, v) (R78). -/
def dataWrite (off : Nat) (v : Word) (s : State) : State :=
  busyGuard (fun s =>
    match off with
    | 0x50 => { s with iarg := v }
    | 0x58 => { s with farg := setLow s.farg v }
    | 0x5C => { s with farg := setHigh s.farg v }
    | _ => s) s

/-- The write a permitted access is dispatched to (R72). -/
def permittedWrite (off : Nat) (n : Width) (v : Word) (s : State) : State :=
  if off + n.bytes ≤ 0x28 then pktWrite off n v s
  else if off = 0x30 then cmdWrite v s
  else if off = 0x34 then { s with status := s.status.write v }
  else if off = 0x38 then { s with ctrl := s.ctrl.write v }
  else if off = 0x40 then { s with crcAcc := v }
  else if 0x44 ≤ off ∧ off < 0x48 then crcDataWrite n v s
  else dataWrite off v s

/-- HostWrite(off, n, v) (R72): a bad access raises ERR_ACC and changes nothing else. -/
def hostWrite (off : Nat) (n : Width) (v : Word) (s : State) : Result :=
  if accOK off n .write then .next (permittedWrite off n v s) else .next (raiseErr .errAcc s)

/-- One access at an offset of the window. -/
def hostAccess (off : Nat) (op : BusOp) (s : State) : Result :=
  match op with
  | .read n => hostRead off n s
  | .write n v => hostWrite off n v s

/-- The offset the block decodes, if the address lies in its window (R35). -/
def windowOffset (addr : Nat) : Option Nat :=
  if Config.base ≤ addr ∧ addr < Config.base + Config.windowSize then some (addr - Config.base) else none

/-- One access on the bus (R35, R50): the block answers no address outside its window, and nothing of it changes
(log 4). -/
def busAccess (addr : Nat) (op : BusOp) (s : State) : Result :=
  match windowOffset addr with
  | some off => hostAccess off op s
  | none => .next s

end Sys2Proof.Machine
end

