-- ==== Sys2Proof/Machine/Agents.lean ====
section
/-! DEFINITION. The two agents and the reset event (R10): the completion step (R84), and which of them moves next. -/

namespace Sys2Proof.Machine

/-- Complete() (R84), enabled iff BUSY = 1: Exec, then BUSY <- 0 and DONE <- 1, all in one step. -/
def complete (s : State) : Result :=
  match decode s.pend with
  | .error _ => .refused .illegalPending
  | .ok i =>
    match exec i s with
    | .next t => .next (finish t)
    | .fault f => .fault f
    | .refused r => .refused r

/-- The block's turn: its completion step if one is enabled (R84), otherwise nothing (log 1). -/
def blockTurn (s : State) : Result := if s.status.busy then complete s else .next s

/-- One step of one agent (R10). The agenda says which; when it is empty, a pending command completes (weak
fairness) and an idle machine stays as it is (log 1). -/
def agentStep (s : State) : Result :=
  match s.agenda with
  | [] => if s.status.busy then complete (takeTurn [] s) else .next s
  | .block :: rest => blockTurn (takeTurn rest s)
  | .bus addr op :: rest => busAccess addr op (takeTurn rest s)
  | .reset :: rest => .next (resetEvent (takeTurn rest s))

/-- A command word held as pending, with the block's turn next: what an accepted write to CMD and the block's turn
leave the completion step to find (R81, log 2). -/
def pendWord (w : Word) (s : State) : State :=
  { s with pend := w, status := { s.status with busy := true }, agenda := .block :: s.agenda }

end Sys2Proof.Machine
end

