-- ==== Sys2Proof/Machine/HostProgram.lean ====
section
/-! DEFINITION. The host's access syntax (R69) and pseudo-instructions (R70) as agenda entries. They are the
host's; nothing here is a step of the block. -/

namespace Sys2Proof.Machine.HostProgram

/-- The fourteen register names of R69, as offsets. -/
def PKTBUF : Nat := 0x00
def CMD : Nat := 0x30
def STATUS : Nat := 0x34
def CTRL : Nat := 0x38
def CRC_ACC : Nat := 0x40
def CRC_DATA : Nat := 0x44
def CRC_OUT : Nat := 0x48
def PCRC : Nat := 0x4C
def IARG : Nat := 0x50
def IRES : Nat := 0x54
def FARG_LO : Nat := 0x58
def FARG_HI : Nat := 0x5C
def FRES_LO : Nat := 0x60
def FRES_HI : Nat := 0x64

/-- `MemRead(off, n)` at an offset of the window (R8). -/
def memRead (off : Nat) (n : Width) : Event := .bus (Config.base + off) (.read n)

/-- `MemWrite(off, n, v)` at an offset of the window (R8). -/
def memWrite (off : Nat) (n : Width) (v : Word) : Event := .bus (Config.base + off) (.write n v)

def SB (off : Nat) (v : Word) : Event := memWrite off .w1 v
def SH (off : Nat) (v : Word) : Event := memWrite off .w2 v
def SW (off : Nat) (v : Word) : Event := memWrite off .w4 v
def LB (off : Nat) : Event := memRead off .w1
def LH (off : Nat) : Event := memRead off .w2
def LW (off : Nat) : Event := memRead off .w4

/-- `LB|LH|LW off -> v` (R69): `v` is the value the rules give that read in `s` (R71). What else the read does is
the rules' matter: a bad one returns 0 and raises ERR_ACC. -/
def reads (off : Nat) (n : Width) (v : Word) (s : State) : Prop :=
  ∃ t, hostRead off n s = .next t ∧ t.answer = some v

/-- `CMD <command>` (R70). -/
def cmd (i : Instr) : Event := SW CMD (encode i)

/-- The test of WAIT (R70): go to L if bit 0 of the value the poll read is 1. -/
def goesOn (v : Word) : Bool := v.getLsbD 0

/-- The accesses of `WAIT` (R70) begun in `s`, with the block's turn put before the poll that follows `k` others
(LATENCY, R152; log 9). A poll changes nothing (R42), so each of those `k` reads STATUS as `s` has it, and the loop
goes on only while bit 0 of the value read is 1. The poll after the block's turn reads BUSY = 0. -/
def wait : Nat → State → List Event
  | 0, _ => [.block, LW STATUS]
  | k + 1, s => LW STATUS :: if goesOn (regRead STATUS s) then wait k s else []

/-- `CLRST` (R70). -/
def clrst : Event := SW STATUS 0x00000F02#32

/-- `LDPKT b0 .. b39` (R70): ten 4-byte writes, little-endian; a shorter list gives fewer writes. -/
def ldpktFrom : Nat → List Byte → List Event
  | off, b0 :: b1 :: b2 :: b3 :: bs =>
    SW off (BitVec.ofNat 32 (leValue [b0, b1, b2, b3])) :: ldpktFrom (off + 4) bs
  | _, _ => []

/-- `LDPKT b0 .. b39` (R70). -/
def ldpkt (bs : List Byte) : List Event := ldpktFrom 0 bs

/-- `SETF d` (R70). -/
def setf (d : Double) : List Event := [SW FARG_LO (d.extractLsb' 0 32), SW FARG_HI (d.extractLsb' 32 32)]

/-- The two reads of `GETF` (R70). -/
def getf : List Event := [LW FRES_LO, LW FRES_HI]

/-- The result of `GETF` (R70) from the values its two reads return: `FRES_HI << 32 | FRES_LO`. -/
def getfResult (lo hi : Word) : Double := (hi.setWidth 64 <<< 32) ||| lo.setWidth 64

/-- `RUN <command>` (R70) begun in `s`: the write to CMD, then WAIT from the state that write leaves. -/
def run (i : Instr) (k : Nat) (s : State) : List Event := cmd i :: wait k (cmdWrite (encode i) s)

end Sys2Proof.Machine.HostProgram
end

