-- ==== Sys2Proof/Machine/Step.lean ====
section
/-! DEFINITION. The step of the machine, and how a table row's word is put where the next step runs it. -/

namespace Sys2Proof.Machine

/-- One step (R10): one host access, one completion step, or one reset event. -/
def step (s : State) : Host.Outcome State Fault Refusal := agentStep s

/-- The command word held as pending with the block to move, so that the next step is its completion step. It stands
for the host's accepted write to CMD (R81, log 2). -/
def State.withFetchWord (s : State) (nbits w : Nat) : State := pendWord (BitVec.ofNat 32 (w % 2 ^ nbits)) s

end Sys2Proof.Machine
end

