-- ==== Sys2Proof/Safety.lean ====
section
/-! DEFINITION. The terms the statements are written in: whose turn is next, what a region of the packet buffer
holds, the invariants, the end of a host program (R86), and the spec's real-number rules (R9, R121, R123) written
over the rationals, apart from the integer algorithms of the machine. -/

namespace Sys2Proof.Machine

/-- The block moves next, with `rest` after it: its turn stands first, or nothing is left in the agenda (R10,
log 1). -/
abbrev blockNext (s : State) (rest : List Event) : Prop :=
  s.agenda = .block :: rest ∨ (s.agenda = [] ∧ rest = [])

/-- The host moves next, with one access at offset `off` of the window (R10, R35). -/
abbrev hostNext (s : State) (off : Nat) (op : BusOp) (rest : List Event) : Prop :=
  s.agenda = .bus (Config.base + off) op :: rest ∧ off < Config.windowSize

/-- A host access, not the block's turn and not a reset. -/
def Event.isHost : Event → Bool
  | .bus _ _ => true
  | .block => false
  | .reset => false

/-- Every entry is a host access. -/
abbrev onlyHost (es : List Event) : Prop := ∀ e ∈ es, e.isHost = true

/-- The width of an access. -/
def BusOp.width : BusOp → Width
  | .read n => n
  | .write n _ => n

/-- The direction of an access. -/
def BusOp.dir : BusOp → Dir
  | .read _ => .read
  | .write _ _ => .write

/-- The bytes from `off` on are written and are `bs`. -/
abbrev holds (m : Memory) (off : Nat) (bs : List Byte) : Prop :=
  ∀ k < bs.length, m.byte? (off + k) = bs[k]?

/-- Some byte of a region is unwritten. -/
abbrev missing (m : Memory) (off n : Nat) : Prop := ∃ k < n, m.byte? (off + k) = none

/-- `r` is the model fault on an unwritten byte of a region (R17). Which one, where several are unwritten, is the
model's choice (log 7) and not part of this. -/
def faultsOn (r : Result) (m : Memory) (off n : Nat) : Prop :=
  ∃ k < n, m.byte? (off + k) = none ∧ r = .fault (.unwrittenRead (off + k))

/-- `m'` is `m` with `bs` stored from `off` on, and every other byte as it was. -/
def stored (m m' : Memory) (off : Nat) (bs : List Byte) : Prop :=
  ∀ a, m'.byte? a = if off ≤ a ∧ a < off + bs.length then bs[a - off]? else m.byte? a

/-- Byte k of a 32-bit value, v[8k+7:8k] (R39). -/
def lane (v : Word) (k : Nat) : Byte := v.extractLsb' (8 * k) 8

/-- The lanes an access of a width carries, in order of increasing address (R39). -/
def lanes (n : Width) (v : Word) : List Byte := (List.range n.bytes).map (lane v)

/-- The locations whose writes are busy-guarded (R36, R135). -/
def guarded (off : Nat) : Prop := off < 0x28 ∨ off = 0x30 ∨ off = 0x50 ∨ off = 0x58 ∨ off = 0x5C

/-- The selectors of the gyro and accel fields, FSEL 1 to 6 in order, and the offsets R62 gives them,
12 + 4 * (FSEL - 1). -/
def qFields : List (FSel × Nat) :=
  [(.gyro0, 12), (.gyro1, 16), (.gyro2, 20), (.accel0, 24), (.accel1, 28), (.accel2, 32)]

/-- One row of the register map (R36): first and last-plus-one offset, widths, readable, writable. -/
structure MapRow where
  lo : Nat
  hi : Nat
  widths : List Width
  readable : Bool
  writable : Bool
deriving DecidableEq, Repr

/-- The register map (R36), without its reserved rows. -/
def regMap : List MapRow :=
  [ ⟨0x00, 0x28, [.w1, .w2, .w4], true, true⟩,    -- PKTBUF
    ⟨0x30, 0x34, [.w4], false, true⟩,             -- CMD
    ⟨0x34, 0x38, [.w4], true, true⟩,              -- STATUS
    ⟨0x38, 0x3C, [.w4], true, true⟩,              -- CTRL
    ⟨0x40, 0x44, [.w4], true, true⟩,              -- CRC_ACC
    ⟨0x44, 0x48, [.w1, .w2, .w4], false, true⟩,   -- CRC_DATA
    ⟨0x48, 0x4C, [.w4], true, false⟩,             -- CRC_OUT
    ⟨0x4C, 0x50, [.w4], true, false⟩,             -- PCRC
    ⟨0x50, 0x54, [.w4], true, true⟩,              -- IARG
    ⟨0x54, 0x58, [.w4], true, false⟩,             -- IRES
    ⟨0x58, 0x5C, [.w4], true, true⟩,              -- FARG_LO
    ⟨0x5C, 0x60, [.w4], true, true⟩,              -- FARG_HI
    ⟨0x60, 0x64, [.w4], true, false⟩,             -- FRES_LO
    ⟨0x64, 0x68, [.w4], true, false⟩ ]            -- FRES_HI

/-- A host program has ended (R86): the host has issued its last access, and no command is pending. Turns of the
block and resets may still stand in the agenda. R86's third condition holds of every state: a model fault leaves
none. -/
def programEnded (s : State) : Prop := (∀ e ∈ s.agenda, e.isHost = false) ∧ s.status.busy = false

/-- A pending command is a legal one (R81). -/
def pendingLegal (s : State) : Prop := s.status.busy = true → legal s.pend = true

/-- VVALID = 1 means that VRES is the result VALIDATE would give for the current PKTBUF (R107). -/
def verdictCurrent (s : State) : Prop :=
  s.status.vvalid = true → ∃ c, s.pkt.classify = .ok (s.status.vres, c)

/-- A pattern that is +0.0 or normal: no NaN, infinity, -0.0 or subnormal (R120). -/
def zeroOrNormal (d : Double) : Prop := d = 0#64 ∨ (1 ≤ expBits d ∧ expBits d ≤ 2046)

/-- FRES is +0.0 or normal (R120). -/
def fresNormal (s : State) : Prop := zeroOrNormal s.fres

/-- A pattern that denotes a real number (R9). -/
abbrev isFinite (d : Double) : Prop := expBits d ≠ 2047

/-- real(d) of a finite pattern, by the definition of binary64 (R9, R113). -/
def valueQ (d : Double) : ℚ :=
  (if signBit d then -1 else 1) *
    (if expBits d = 0 then (fracBits d : ℚ) * 2 ^ (-1074 : ℤ)
     else ((2 ^ 52 + fracBits d : ℕ) : ℚ) * 2 ^ ((expBits d : ℤ) - 1075))

/-- The rational a fraction stands for. -/
def Frac.toQ (x : Frac) : ℚ := (x.num : ℚ) / (x.den : ℚ)

/-- d is the finite binary64 value nearest to x, a tie going to the even significand, an exact zero being +0.0
(R9). -/
def isNearest (x : ℚ) (d : Double) : Prop :=
  isFinite d
    ∧ (∀ e, isFinite e → |valueQ d - x| ≤ |valueQ e - x|)
    ∧ (∀ e, isFinite e → |valueQ d - x| = |valueQ e - x| → valueQ e ≠ valueQ d → fracBits d % 2 = 0)
    ∧ (x = 0 → d = 0#64)

/-- rha(x) = sign(x) * floor(|x| + 1/2) (R9). -/
def rhaQ (x : ℚ) : ℤ := if x < 0 then -⌊-x + 1 / 2⌋ else ⌊x + 1 / 2⌋

/-- enc_temp(d) (R121), over the rationals. -/
def encTempRule (d : Double) : Half × Bool :=
  if isNaN d then (0#16, true)
  else if isInf d then (if signBit d then 0#16 else 65535#16, true)
  else
    let x := rhaQ (100 * valueQ d + 27315)
    if x < 0 then (0#16, true)
    else if x > 65535 then (65535#16, true)
    else (BitVec.ofInt 16 x, false)

/-- enc_q(d) (R123), over the rationals. -/
def encQRule (d : Double) : Word × Bool :=
  if isNaN d then (0x00000000#32, true)
  else if isInf d then (if signBit d then 0x80000000#32 else 0x7FFFFFFF#32, true)
  else
    let x := rhaQ (valueQ d * 65536)
    if x > 2 ^ 31 - 1 then (0x7FFFFFFF#32, true)
    else if x < -2 ^ 31 then (0x80000000#32, true)
    else (BitVec.ofInt 32 x, false)

/-- Commands run one after the other, each as its completion step runs it, with FARG set by the host before each
one that names a value (R131). -/
def runCommands : List (Instr × Option Double) → State → Result
  | [], s => .next s
  | (i, d) :: is, s =>
    match exec i { s with farg := d.getD s.farg } with
    | .next t => runCommands is t
    | .fault f => .fault f
    | .refused r => .refused r

end Sys2Proof.Machine
end

