-- ==== Sys2Proof/Certificates/Slice0/Obligations.lean ====
section
/-! DEFINITION. The statements for the provers, each a Prop. None of them is about a particular program. The agenda
and the answer field are the model's own (log 1, log 6): a statement about every state is one about every
schedule of host accesses, block turns and resets. Where a statement equates a whole state whose BUSY is 0 with
another, it also says that PEND keeps its word, which is the model's choice (log 21): the spec lets PEND hold any
value there (S7). -/

open Sys2Proof Sys2Proof.Machine

/-! ### Encoding -/

/-- R61 to R64, R68: decoding the encoding of a well-formed command gives it back, every operand at every value. -/
def Obligations.DecodeInvertsEncode : Prop :=
  ∀ i : Instr, i.wellFormed = true → decode (encode i) = .ok i

/-- R60 to R64: each command has one word. -/
def Obligations.EncodeInvertsDecode : Prop :=
  ∀ (w : Word) (i : Instr), decode w = .ok i → encode i = w ∧ i.wellFormed = true

/-- R64, R65: the words the predicate calls legal are exactly the words that decode to a command. -/
def Obligations.LegalWordsAreTheDecodable : Prop :=
  ∀ w : Word, legal w = true ↔ ∃ i, decode w = .ok i

/-- R65: 279 words are legal. -/
def Obligations.LegalWordCount : Prop :=
  ∃ l : List Word, l.Nodup ∧ l.length = 279 ∧ ∀ w : Word, legal w = true ↔ w ∈ l

/-- R61, R68 and the illegal words of L2.10: words written out from the spec decode to what they stand for. -/
def Obligations.SpecWordsDecode : Prop :=
  decode 0x00000000#32 = .ok .nop ∧ decode 0x00000001#32 = .ok .validate ∧ decode 0x00000002#32 = .ok .crcpkt
    ∧ decode 0x00000003#32 = .ok .sealPkt ∧ decode 0x00000004#32 = .ok .sethdr
    ∧ decode 0x00001E05#32 = .ok (.setseq 0x1E#8) ∧ decode 0x00000710#32 = .ok (.cvtt .arg)
    ∧ decode 0x00000111#32 = .ok (.cvtq .gyro0) ∧ decode 0x00000211#32 = .ok (.cvtq .gyro1)
    ∧ decode 0x00000311#32 = .ok (.cvtq .gyro2) ∧ decode 0x00000411#32 = .ok (.cvtq .accel0)
    ∧ decode 0x00000511#32 = .ok (.cvtq .accel1) ∧ decode 0x00000611#32 = .ok (.cvtq .accel2)
    ∧ decode 0x00000712#32 = .ok (.enct .arg)
    ∧ decode 0x00000113#32 = .ok (.encq .gyro0)
    ∧ decode 0x00000110#32 = .error .selectorOutOfSet ∧ decode 0x00000011#32 = .error .selectorOutOfSet
    ∧ decode 0x00000006#32 = .error .reservedOp ∧ decode 0x00010001#32 = .error .rsvdNotZero
    ∧ decode 0x00000101#32 = .error .operandNotZero ∧ decode 0x00000811#32 = .error .selectorUnassigned

/-! ### The completion step and the agents -/

/-- R84: when the block moves and a command is pending, the step is Exec of the decoded command, then BUSY <- 0
and DONE <- 1, all at once. That an empty agenda leaves the move to the block is the model's choice (log 1), and so
is that PEND keeps its word once BUSY is 0 (log 21). -/
def Obligations.StepRunsPendingCommand : Prop :=
  ∀ (s : State) (rest : List Event) (i : Instr),
    blockNext s rest → s.status.busy = true → decode s.pend = .ok i →
    step s =
      (match exec i { s with agenda := rest, answer := none } with
        | .next t => .next { t with status := { t.status with busy := false, done := true } }
        | .fault f => .fault f
        | .refused r => .refused r)

/-- R84 (progress), R152: where a command is pending and the agenda holds only host accesses, a run that does not stop
(no model fault, no refusal) and takes one step more than the agenda is long ends with the command completed,
whatever the host did meanwhile. It does not say that the run does not stop. That an empty agenda leaves the move to
the block is the model's form of weak fairness (log 1). -/
def Obligations.UnstoppedRunCompletesPendingCommand : Prop :=
  ∀ s t : State, s.status.busy = true → onlyHost s.agenda →
    Host.Core.run Sys2Proof.core (s.agenda.length + 1) s = .next t →
    t.agenda = [] ∧ programEnded t ∧ t.status.done = true

/-- R49, R80, R83: as long as only the host moves, a pending command's inputs and the results it will write keep
their values, and it stays pending. -/
def Obligations.PendingCommandIsUndisturbed : Prop :=
  ∀ (k : Nat) (s t : State), s.status.busy = true → k ≤ s.agenda.length → onlyHost (s.agenda.take k) →
    Host.Core.run Sys2Proof.core k s = .next t →
    t.status.busy = true ∧ t.pend = s.pend ∧ t.pkt = s.pkt ∧ t.iarg = s.iarg ∧ t.farg = s.farg
      ∧ t.pcrc = s.pcrc ∧ t.ires = s.ires ∧ t.fres = s.fres
      ∧ t.status.vres = s.status.vres ∧ t.status.vvalid = s.status.vvalid

/-- R80, R155: a CRC_DATA write and a completion step next to each other may be taken in either order; the same
state, fault or refusal follows. -/
def Obligations.CrcStreamCommutesWithCompletion : Prop :=
  ∀ (s : State) (rest : List Event) (off : Nat) (n : Width) (v : Word),
    0x44 ≤ off → off < 0x48 → accOK off n .write = true → s.status.busy = true →
    Host.Core.run Sys2Proof.core 2
        { s with agenda := .bus (Config.base + off) (.write n v) :: .block :: rest }
      = Host.Core.run Sys2Proof.core 2
        { s with agenda := .block :: .bus (Config.base + off) (.write n v) :: rest }

/-- R70, with LATENCY as the number k of log 9: a WAIT loop begun in any state, of which the run does not stop, ends
at its first poll that reads bit 0 = 0. Every earlier poll read bit 0 = 1, and no command is pending at the end. -/
def Obligations.WaitEndsAtFirstIdlePoll : Prop :=
  ∀ (k : Nat) (s t : State) (rest : List Event),
    s.agenda = HostProgram.wait k s ++ rest →
    Host.Core.run Sys2Proof.core (HostProgram.wait k s).length s = .next t →
    t.agenda = rest ∧ t.status.busy = false ∧ (∃ v, t.answer = some v ∧ v.getLsbD 0 = false)
      ∧ ∀ (j : Nat) (u : State) (v : Word), 0 < j → j < (HostProgram.wait k s).length →
        Host.Core.run Sys2Proof.core j s = .next u → u.answer = some v → v.getLsbD 0 = true

/-! ### Invariants -/

/-- The packet buffer keeps its canonical form, with every written byte inside the 40 bytes of R16. -/
def Obligations.StepKeepsPacketCanonical : Prop :=
  ∀ s t : State, s.pkt.wf → step s = .next t → t.pkt.wf

/-- R81, R31: PEND holds a legal word whenever a command is pending. -/
def Obligations.StepKeepsPendingLegal : Prop :=
  ∀ s t : State, pendingLegal s → step s = .next t → pendingLegal t

/-- R107: VVALID = 1 means that VRES is the result VALIDATE would give for the current PKTBUF. -/
def Obligations.StepKeepsVerdictCurrent : Prop :=
  ∀ s t : State, verdictCurrent s → step s = .next t → verdictCurrent t

/-- R120: FRES is never NaN, infinite, subnormal or -0.0. -/
def Obligations.StepKeepsFresNormal : Prop :=
  ∀ s t : State, fresNormal s → step s = .next t → fresNormal t

/-- The four invariants hold after reset. -/
def Obligations.ResetMeetsInvariants : Prop :=
  State.reset.pkt.wf ∧ pendingLegal State.reset ∧ verdictCurrent State.reset ∧ fresNormal State.reset

/-- A machine whose pending command is legal never refuses a step. -/
def Obligations.StepNeverRefuses : Prop :=
  ∀ (s : State) (r : Refusal), pendingLegal s → step s ≠ .refused r

/-- R17, R133: the one fault is a read of an unwritten byte of PKTBUF, and it names such a byte. -/
def Obligations.FaultsAreUnwrittenReads : Prop :=
  ∀ (s : State) (f : Fault), step s = .fault f →
    ∃ off < Config.pktLen, f = .unwrittenRead off ∧ s.pkt.byte? off = none

/-! ### Whole-machine rules -/

/-- R27: DONE rises only at a completion step or at an illegal word written to CMD while BUSY = 0, and falls only at
a host write of 1 to its bit or at a reset. -/
def Obligations.DoneChangesOnly : Prop :=
  ∀ s t : State, step s = .next t →
    (s.status.done = false → t.status.done = true →
      (s.status.busy = true ∧ ∃ rest, blockNext s rest)
        ∨ (s.status.busy = false ∧ ∃ w rest, hostNext s 0x30 (.write .w4 w) rest ∧ legal w = false))
    ∧ (s.status.done = true → t.status.done = false →
      (∃ v rest, hostNext s 0x34 (.write .w4 v) rest ∧ v.getLsbD 1 = true) ∨ ∃ rest, s.agenda = .reset :: rest)

/-- R33, R143, R149: irq rises only where DONE rises with IE set, or where the host sets IE with DONE set; it falls
only at a host write that clears DONE or IE, or at a reset. -/
def Obligations.InterruptChangesOnly : Prop :=
  ∀ s t : State, step s = .next t →
    (irq s = false → irq t = true →
      (s.ctrl.ie = true ∧ s.status.busy = true ∧ ∃ rest, blockNext s rest)
        ∨ (s.ctrl.ie = true ∧ s.status.busy = false ∧
            ∃ w rest, hostNext s 0x30 (.write .w4 w) rest ∧ legal w = false)
        ∨ (s.status.done = true ∧ ∃ v rest, hostNext s 0x38 (.write .w4 v) rest ∧ v.getLsbD 0 = true))
    ∧ (irq s = true → irq t = false →
      (∃ v rest, hostNext s 0x34 (.write .w4 v) rest ∧ v.getLsbD 1 = true)
        ∨ (∃ v rest, hostNext s 0x38 (.write .w4 v) rest ∧ v.getLsbD 0 = false)
        ∨ ∃ rest, s.agenda = .reset :: rest)

/-- R26: BUSY rises only where a legal word is accepted, and falls only at the completion step or a reset. -/
def Obligations.BusyChangesOnly : Prop :=
  ∀ s t : State, step s = .next t →
    (s.status.busy = false → t.status.busy = true →
      ∃ w rest, hostNext s 0x30 (.write .w4 w) rest ∧ legal w = true ∧ t.pend = w)
    ∧ (s.status.busy = true → t.status.busy = false →
      (∃ rest, blockNext s rest) ∨ ∃ rest, s.agenda = .reset :: rest)

/-- R29: an error flag that is set stays set until a host write of 1 to its bit, or a reset. -/
def Obligations.ErrorFlagsAreSticky : Prop :=
  ∀ (s t : State) (f : ErrFlag), step s = .next t → s.status.flag f = true → t.status.flag f = false →
    (∃ v rest, hostNext s 0x34 (.write .w4 v) rest ∧ v.getLsbD f.bit = true) ∨ ∃ rest, s.agenda = .reset :: rest

/-- R133, R139: an error flag rises only for the cause the table gives it, and no step raises two. -/
def Obligations.ErrorFlagCauses : Prop :=
  ∀ (s t : State) (f : ErrFlag), step s = .next t → s.status.flag f = false → t.status.flag f = true →
    (match f with
      | .errAcc => ∃ off op rest, hostNext s off op rest ∧ accOK off op.width op.dir = false
      | .errBusy => s.status.busy = true ∧ ∃ off n v rest,
          hostNext s off (.write n v) rest ∧ accOK off n .write = true ∧ guarded off
      | .errIll => s.status.busy = false ∧ ∃ w rest, hostNext s 0x30 (.write .w4 w) rest ∧ legal w = false
      | .range => s.status.busy = true ∧ (∃ rest, blockNext s rest) ∧ ∃ a,
          (decode s.pend = .ok (.enct a) ∧ (encTempRule s.farg).2 = true)
            ∨ (decode s.pend = .ok (.encq a) ∧ (encQRule s.farg).2 = true))
    ∧ ∀ g, s.status.flag g = false → t.status.flag g = true → g = f

/-- R107: VVALID rises only at a completion of VALIDATE, and no step that changes a byte of PKTBUF leaves it set. -/
def Obligations.VvalidTracksBuffer : Prop :=
  ∀ s t : State, step s = .next t →
    (s.status.vvalid = false → t.status.vvalid = true →
      s.status.busy = true ∧ decode s.pend = .ok .validate ∧ ∃ rest, blockNext s rest)
    ∧ (∀ a, t.pkt.byte? a ≠ s.pkt.byte? a → t.status.vvalid = false)

/-- R34, R80: no command writes CRC_ACC, CTRL, IARG, FARG or PEND, or any STATUS field but VRES, VVALID and RANGE;
and what the model holds beside the spec's state is untouched. -/
def Obligations.CommandFrame : Prop :=
  ∀ (i : Instr) (s t : State), exec i s = .next t →
    t.crcAcc = s.crcAcc ∧ t.ctrl = s.ctrl ∧ t.iarg = s.iarg ∧ t.farg = s.farg ∧ t.pend = s.pend
      ∧ t.agenda = s.agenda ∧ t.answer = s.answer
      ∧ t.status.busy = s.status.busy ∧ t.status.done = s.status.done ∧ t.status.errIll = s.status.errIll
      ∧ t.status.errBusy = s.status.errBusy ∧ t.status.errAcc = s.status.errAcc
      ∧ (s.status.range = true → t.status.range = true)

/-- R34: a command's results are a function of PKTBUF, IARG and FARG alone. Two states that agree on these complete
alike, each result register gets the same value in both or is left alone in both, and RANGE is raised in both or in
neither. -/
def Obligations.CommandsAreStateless : Prop :=
  ∀ (i : Instr) (s s' t : State), s'.pkt = s.pkt → s'.iarg = s.iarg → s'.farg = s.farg → exec i s = .next t →
    ∃ t', exec i s' = .next t' ∧ t'.pkt = t.pkt
      ∧ (t'.fres = t.fres ∨ (t'.fres = s'.fres ∧ t.fres = s.fres))
      ∧ (t'.ires = t.ires ∨ (t'.ires = s'.ires ∧ t.ires = s.ires))
      ∧ (t'.pcrc = t.pcrc ∨ (t'.pcrc = s'.pcrc ∧ t.pcrc = s.pcrc))
      ∧ (t'.status.vres = t.status.vres
          ∨ (t'.status.vres = s'.status.vres ∧ t.status.vres = s.status.vres))
      ∧ (t'.status.vvalid = t.status.vvalid
          ∨ (t'.status.vvalid = s'.status.vvalid ∧ t.status.vvalid = s.status.vvalid))
      ∧ ∃ raised : Bool, t'.status.range = (s'.status.range || raised) ∧ t.status.range = (s.status.range || raised)

/-! ### Host accesses -/

/-- R36, R37: the permitted accesses are those of the register map: naturally aligned, inside one row, of a width
and direction the row allows. -/
def Obligations.PermittedAccessesAreTheMap : Prop :=
  ∀ (off : Nat) (n : Width) (dir : Dir),
    accOK off n dir = true ↔
      off % n.bytes = 0 ∧ ∃ row ∈ regMap, row.lo ≤ off ∧ off + n.bytes ≤ row.hi ∧ n ∈ row.widths
        ∧ (match dir with
            | .read => row.readable = true
            | .write => row.writable = true)

/-- R134: a bad access raises ERR_ACC, whether or not a command is pending, and changes nothing else; a bad read
returns 0. The rule's five examples are bad accesses. -/
def Obligations.BadAccessRaisesErrAcc : Prop :=
  (∀ (s : State) (off : Nat) (op : BusOp) (rest : List Event),
    hostNext s off op rest → accOK off op.width op.dir = false →
    step s = .next { s with
      agenda := rest
      answer := (match op with
        | .read _ => some 0x00000000#32
        | .write _ _ => none)
      status := { s.status with errAcc := true } })
  ∧ accOK 0x30 .w4 .read = false ∧ accOK 0x4C .w4 .write = false ∧ accOK 0x34 .w2 .read = false
  ∧ accOK 0x02 .w4 .write = false ∧ accOK 0x28 .w4 .read = false

/-- R42: a read changes no state, but for ERR_ACC on a bad access, and a second read of the same offset right
after a permitted one returns the same value. -/
def Obligations.ReadsHaveNoSideEffects : Prop :=
  ∀ (s t : State) (off : Nat) (n : Width) (rest : List Event),
    hostNext s off (.read n) rest → step s = .next t →
    (∃ v, t = { s with
      agenda := rest
      answer := some v
      status := if accOK off n .read then s.status else { s.status with errAcc := true } })
    ∧ ∀ (rest' : List Event) (u : State), accOK off n .read = true →
        rest = .bus (Config.base + off) (.read n) :: rest' → step t = .next u → u.answer = t.answer

/-- R50 and the model's choice of log 4: an access outside the window changes nothing and gets no answer. -/
def Obligations.OutsideWindowIsIgnored : Prop :=
  ∀ (s : State) (addr : Nat) (op : BusOp) (rest : List Event),
    s.agenda = .bus addr op :: rest → (addr < Config.base ∨ Config.base + 128 ≤ addr) →
    step s = .next { s with agenda := rest, answer := none }

/-- R74: a permitted read of PKTBUF returns the little-endian sum of its bytes and changes nothing, BUSY or not;
with an unwritten byte among them it is the model fault on an unwritten one. -/
def Obligations.PacketReads : Prop :=
  ∀ (s : State) (off : Nat) (n : Width) (rest : List Event),
    hostNext s off (.read n) rest → accOK off n .read = true → off + n.bytes ≤ 0x28 →
    (∀ p : Nat → Byte, (∀ k < n.bytes, s.pkt.byte? (off + k) = some (p k)) →
      step s = .next { s with
        agenda := rest
        answer := some (BitVec.ofNat 32 (∑ k ∈ Finset.range n.bytes, (p k).toNat * 2 ^ (8 * k))) })
    ∧ (missing s.pkt off n.bytes → faultsOn (step s) s.pkt off n.bytes)

/-- R73: a permitted write of PKTBUF stores its lanes little-endian and clears VVALID; while BUSY = 1 it is dropped
with ERR_BUSY. -/
def Obligations.PacketWrites : Prop :=
  ∀ (s : State) (off : Nat) (n : Width) (v : Word) (rest : List Event),
    hostNext s off (.write n v) rest → accOK off n .write = true → off + n.bytes ≤ 0x28 →
    (s.status.busy = true →
      step s = .next { s with agenda := rest, answer := none, status := { s.status with errBusy := true } })
    ∧ (s.status.busy = false → ∃ t, step s = .next t
      ∧ stored s.pkt t.pkt off (lanes n v)
      ∧ t = { s with
          pkt := t.pkt
          agenda := rest
          answer := none
          status := { s.status with vvalid := false } })

/-- R75: a read of STATUS returns its fields at their bits, the reserved bits 0, and changes nothing. -/
def Obligations.StatusReads : Prop :=
  ∀ (s : State) (rest : List Event), hostNext s 0x34 (.read .w4) rest →
    ∃ v : Word, step s = .next { s with agenda := rest, answer := some v }
      ∧ v.getLsbD 0 = s.status.busy ∧ v.getLsbD 1 = s.status.done
      ∧ v.extractLsb' 2 2 = (match s.status.vres with
          | .ok => 0#2
          | .badHeader => 1#2
          | .badSequencer => 2#2
          | .badCrc => 3#2)
      ∧ v.getLsbD 4 = s.status.vvalid ∧ v.extractLsb' 5 3 = 0#3
      ∧ v.getLsbD 8 = s.status.errIll ∧ v.getLsbD 9 = s.status.errBusy
      ∧ v.getLsbD 10 = s.status.errAcc ∧ v.getLsbD 11 = s.status.range ∧ v.extractLsb' 12 20 = 0#20

/-- R76: a write of STATUS clears the flags whose bits are 1 and changes nothing else, BUSY or not. -/
def Obligations.StatusWriteClears : Prop :=
  ∀ (s : State) (v : Word) (rest : List Event), hostNext s 0x34 (.write .w4 v) rest →
    step s = .next { s with
      agenda := rest
      answer := none
      status := { s.status with
        done := if v.getLsbD 1 then false else s.status.done
        errIll := if v.getLsbD 8 then false else s.status.errIll
        errBusy := if v.getLsbD 9 then false else s.status.errBusy
        errAcc := if v.getLsbD 10 then false else s.status.errAcc
        range := if v.getLsbD 11 then false else s.status.range } }

/-- R77: a write of CTRL stores bit 0 in IE; a read returns IE alone. -/
def Obligations.CtrlHoldsInterruptEnable : Prop :=
  (∀ (s : State) (v : Word) (rest : List Event), hostNext s 0x38 (.write .w4 v) rest →
    step s = .next { s with agenda := rest, answer := none, ctrl := { ie := v.getLsbD 0 } })
  ∧ ∀ (s : State) (rest : List Event), hostNext s 0x38 (.read .w4) rest →
    step s = .next { s with
      agenda := rest
      answer := some (if s.ctrl.ie then 0x00000001#32 else 0x00000000#32) }

/-- R78: the operand registers take a host write while BUSY = 0, each half of FARG by itself, and drop it with
ERR_BUSY while BUSY = 1. -/
def Obligations.OperandRegisterWrites : Prop :=
  ∀ (s : State) (off : Nat) (v : Word) (rest : List Event),
    hostNext s off (.write .w4 v) rest → (off = 0x50 ∨ off = 0x58 ∨ off = 0x5C) →
    (s.status.busy = true →
      step s = .next { s with agenda := rest, answer := none, status := { s.status with errBusy := true } })
    ∧ (s.status.busy = false → ∃ t, step s = .next t
      ∧ t = { s with agenda := rest, answer := none, iarg := t.iarg, farg := t.farg }
      ∧ t.iarg = (if off = 0x50 then v else s.iarg)
      ∧ t.farg.extractLsb' 0 32 = (if off = 0x58 then v else s.farg.extractLsb' 0 32)
      ∧ t.farg.extractLsb' 32 32 = (if off = 0x5C then v else s.farg.extractLsb' 32 32))

/-- R79: the data registers read as they stand, BUSY or not, and a read changes nothing. -/
def Obligations.DataRegisterReads : Prop :=
  ∀ (s : State) (off : Nat) (v : Word) (rest : List Event), hostNext s off (.read .w4) rest →
    ((off, v) = (0x4C, s.pcrc) ∨ (off, v) = (0x50, s.iarg) ∨ (off, v) = (0x54, s.ires)
      ∨ (off, v) = (0x58, s.farg.extractLsb' 0 32) ∨ (off, v) = (0x5C, s.farg.extractLsb' 32 32)
      ∨ (off, v) = (0x60, s.fres.extractLsb' 0 32) ∨ (off, v) = (0x64, s.fres.extractLsb' 32 32)) →
    step s = .next { s with agenda := rest, answer := some v }

/-- R81: a write of a word to CMD is dropped with ERR_BUSY while BUSY = 1; an illegal word raises ERR_ILL and sets
DONE; a legal one becomes the pending command. Nothing else changes. -/
def Obligations.CommandWrites : Prop :=
  ∀ (s : State) (w : Word) (rest : List Event), hostNext s 0x30 (.write .w4 w) rest →
    step s = .next (
      if s.status.busy then
        { s with agenda := rest, answer := none, status := { s.status with errBusy := true } }
      else if legal w then
        { s with agenda := rest, answer := none, pend := w, status := { s.status with busy := true } }
      else
        { s with agenda := rest, answer := none, status := { s.status with errIll := true, done := true } })

/-- R147, R148, R158: a reset event, whether or not a command is pending, unwrites every byte, discards the command
and gives every register its value; that is also how the machine starts. Nothing is said of PEND. That the rest of
the agenda stays is the model's choice (log 8), not the rules'. -/
def Obligations.ResetGivesTheResetValues : Prop :=
  (∀ (s : State) (rest : List Event), s.agenda = .reset :: rest → ∃ t, step s = .next t ∧ t.agenda = rest
    ∧ (∀ a, t.pkt.byte? a = none) ∧ t.crcAcc = 0xFFFFFFFF#32 ∧ t.pcrc = 0#32 ∧ t.iarg = 0#32 ∧ t.ires = 0#32
    ∧ t.farg = 0#64 ∧ t.fres = 0#64 ∧ statusValue t.status = 0#32 ∧ ctrlValue t.ctrl = 0#32
    ∧ t.status.busy = false ∧ crcOut t = 0#32 ∧ irq t = false)
  ∧ (∀ a, State.reset.pkt.byte? a = none) ∧ State.reset.crcAcc = 0xFFFFFFFF#32
  ∧ State.reset.pcrc = 0#32 ∧ State.reset.iarg = 0#32 ∧ State.reset.ires = 0#32
  ∧ State.reset.farg = 0#64 ∧ State.reset.fres = 0#64 ∧ statusValue State.reset.status = 0#32
  ∧ ctrlValue State.reset.ctrl = 0#32 ∧ crcOut State.reset = 0#32 ∧ irq State.reset = false

/-! ### The CRC engine -/

/-- R92 to R94: the stream port. A write of CRC_ACC stores, a write of CRC_DATA feeds its lanes low byte first, and
CRC_ACC and CRC_OUT read the register before and after the final XOR; BUSY or not, and nothing else changes. -/
def Obligations.CrcStreamPort : Prop :=
  ∀ (s : State) (rest : List Event),
    (∀ v, hostNext s 0x40 (.write .w4 v) rest →
      step s = .next { s with agenda := rest, answer := none, crcAcc := v })
    ∧ (∀ off n v, hostNext s off (.write n v) rest → 0x44 ≤ off → off < 0x48 → accOK off n .write = true →
      step s = .next { s with
        agenda := rest
        answer := none
        crcAcc := (List.range n.bytes).foldl (fun c k => upd c (lane v k)) s.crcAcc })
    ∧ (hostNext s 0x40 (.read .w4) rest → step s = .next { s with agenda := rest, answer := some s.crcAcc })
    ∧ (hostNext s 0x48 (.read .w4) rest →
      step s = .next { s with agenda := rest, answer := some (s.crcAcc ^^^ 0xFFFFFFFF#32) })

/-- R95: for any split of a sequence into permitted writes of 1, 2 or 4 bytes, streaming it from 0xFFFFFFFF leaves
CRC_OUT = CRC32(sequence), which is 0 for the empty one. -/
def Obligations.StreamAgreesWithOneShot : Prop :=
  crc32 [] = 0x00000000#32 ∧ ∀ (s : State) (ws : List (Nat × Width × Word)),
    s.crcAcc = 0xFFFFFFFF#32 →
    (∀ w ∈ ws, 0x44 ≤ w.1 ∧ w.1 < 0x48 ∧ accOK w.1 w.2.1 .write = true) →
    s.agenda = ws.map (fun w => .bus (Config.base + w.1) (.write w.2.1 w.2.2)) →
    ∃ t, Host.Core.run Sys2Proof.core ws.length s = .next t
      ∧ crcOut t = crc32 (ws.flatMap fun w => lanes w.2.1 w.2.2)

/-- R89, R91: the table-driven update and the bitwise one agree on every register and byte, and so on every byte
sequence. -/
def Obligations.TableAgreesWithBitwise : Prop :=
  (∀ (c : Word) (b : Byte), updT c b = upd c b)
  ∧ ∀ data : List Byte, data.foldl updT 0xFFFFFFFF#32 ^^^ 0xFFFFFFFF#32 = crc32 data

/-- R99: a one-bit difference changes the checksum; so a packet that validates Ok gives BadCrc once one bit of
PKT[4..35] is flipped. -/
def Obligations.SingleBitErrorIsDetected : Prop :=
  (∀ (data : List Byte) (i j : Nat) (h : i < data.length), j < 8 →
    crc32 (data.set i (data[i] ^^^ (1#8 <<< j))) ≠ crc32 data)
  ∧ ∀ (m : Memory) (c : Option Word) (i j : Nat) (b : Byte),
    m.classify = .ok (.ok, c) → 4 ≤ i → i ≤ 35 → j < 8 → m.byte? i = some b →
    ∃ c', (m.put i (b ^^^ (1#8 <<< j))).classify = .ok (.badCrc, c')

/-- R100: a message followed by its own checksum, little-endian, has the checksum 0x2144DF1C; and for 40 bytes the
residue test and the comparison of the last four bytes give the same verdict. -/
def Obligations.ResidueIdentity : Prop :=
  (∀ data : List Byte, crc32 (data ++ lanes .w4 (crc32 data)) = 0x2144DF1C#32)
  ∧ ∀ (data : List Byte) (v : Word), data.length = 36 →
    (crc32 (data ++ lanes .w4 v) = 0x2144DF1C#32 ↔ v = crc32 data)

/-! ### The commands -/

/-- R82: NOP does nothing, and its completion step changes BUSY and DONE alone. That an empty agenda leaves the move
to the block is the model's choice (log 1), and so is that PEND keeps its word once BUSY is 0 (log 21). -/
def Obligations.NopCompletes : Prop :=
  (∀ s : State, exec .nop s = .next s)
  ∧ ∀ (s : State) (rest : List Event), blockNext s rest → s.status.busy = true → s.pend = 0x00000000#32 →
    step s = .next { s with
      agenda := rest
      answer := none
      status := { s.status with busy := false, done := true } }

/-- R96: CRCPKT puts the checksum of PKT[0..35] into PCRC and changes nothing else; an unwritten byte among them is
the model fault. -/
def Obligations.CrcpktComputesPacketCrc : Prop :=
  ∀ s : State,
    (∀ bs : List Byte, bs.length = 36 → holds s.pkt 0 bs →
      exec .crcpkt s = .next { s with pcrc := crc32 bs })
    ∧ (missing s.pkt 0 36 → faultsOn (exec .crcpkt s) s.pkt 0 36)

/-- R97: SEAL puts the same checksum into PKT[36..39], little-endian, and into PCRC, and clears VVALID; a VALIDATE
right after it never gives BadCrc. -/
def Obligations.SealWritesPacketCrc : Prop :=
  ∀ s : State,
    (∀ bs : List Byte, bs.length = 36 → holds s.pkt 0 bs →
      ∃ t, exec .sealPkt s = .next t ∧ stored s.pkt t.pkt 36 (lanes .w4 (crc32 bs))
        ∧ t = { s with pkt := t.pkt, pcrc := crc32 bs, status := { s.status with vvalid := false } }
        ∧ ∃ u, exec .validate t = .next u ∧ u.status.vres ≠ .badCrc)
    ∧ (missing s.pkt 0 36 → faultsOn (exec .sealPkt s) s.pkt 0 36)

/-- R104: VALIDATE reports the first check that fails, header, sequencer, CRC. It reads no byte beyond the branch it
takes, writes PCRC only where the CRC stage runs, and raises no flag; an unwritten byte of the branch it takes is the
model fault (R17, R84). -/
def Obligations.ValidateClassifies : Prop :=
  ∀ s : State,
    (∀ b0 b1 : Byte, s.pkt.byte? 0 = some b0 → s.pkt.byte? 1 = some b1 → ¬(b0 = 0x74#8 ∧ b1 = 0x95#8) →
      exec .validate s = .next { s with status := { s.status with vres := .badHeader, vvalid := true } })
    ∧ (∀ q c : Byte, holds s.pkt 0 [0x74#8, 0x95#8, q, c] → q ^^^ c ≠ 0xFF#8 →
      exec .validate s = .next { s with status := { s.status with vres := .badSequencer, vvalid := true } })
    ∧ (∀ (q : Byte) (body : List Byte) (v : Word), body.length = 32 →
      holds s.pkt 0 ([0x74#8, 0x95#8, q, q ^^^ 0xFF#8] ++ body ++ lanes .w4 v) →
      exec .validate s = .next { s with
        pcrc := crc32 ([0x74#8, 0x95#8, q, q ^^^ 0xFF#8] ++ body)
        status := { s.status with
          vres := if v = crc32 ([0x74#8, 0x95#8, q, q ^^^ 0xFF#8] ++ body) then .ok else .badCrc
          vvalid := true } })
    ∧ (∀ k, exec .validate s = .fault (.unwrittenRead k) → s.pkt.byte? k = none
      ∧ (2 ≤ k → holds s.pkt 0 [0x74#8, 0x95#8])
      ∧ (4 ≤ k → ∃ q, holds s.pkt 0 [0x74#8, 0x95#8, q, q ^^^ 0xFF#8]))
    ∧ (missing s.pkt 0 2 → faultsOn (exec .validate s) s.pkt 0 2)
    ∧ (holds s.pkt 0 [0x74#8, 0x95#8] → missing s.pkt 2 2 → faultsOn (exec .validate s) s.pkt 2 2)
    ∧ (∀ q : Byte, holds s.pkt 0 [0x74#8, 0x95#8, q, q ^^^ 0xFF#8] → missing s.pkt 4 36 →
      faultsOn (exec .validate s) s.pkt 4 36)

/-- R108: SETHDR writes 74 95 and clears VVALID; it reads nothing, so it always completes. -/
def Obligations.SethdrWritesMagic : Prop :=
  ∀ s : State, ∃ t, exec .sethdr s = .next t ∧ stored s.pkt t.pkt 0 [0x74#8, 0x95#8]
    ∧ t = { s with pkt := t.pkt, status := { s.status with vvalid := false } }

/-- R109: SETSEQ writes the sequencer and its complement and clears VVALID, for every imm8; the pair passes the
check of R102. -/
def Obligations.SetseqWritesPair : Prop :=
  ∀ (s : State) (imm8 : Byte), ∃ t, exec (.setseq imm8) s = .next t
    ∧ stored s.pkt t.pkt 2 [imm8, imm8 ^^^ 0xFF#8]
    ∧ t = { s with pkt := t.pkt, status := { s.status with vvalid := false } }
    ∧ t.pkt.seqOK = .ok true

/-- R116: CVTT puts into FRES the binary64 value nearest to (t - 27315) / 100, for t the packet's temperature or
IARG[15:0], which is +0.0 or normal, and changes nothing else; an unwritten temperature byte is the model fault. -/
def Obligations.CvttIsCorrectlyRounded : Prop :=
  ∀ s : State,
    (∀ lo hi : Byte, holds s.pkt 10 [lo, hi] → ∃ d, exec (.cvtt .temp) s = .next { s with fres := d }
      ∧ isNearest (((lo.toNat + 256 * hi.toNat : ℕ) - 27315 : ℚ) / 100) d ∧ zeroOrNormal d)
    ∧ (∃ d, exec (.cvtt .arg) s = .next { s with fres := d }
      ∧ isNearest ((((s.iarg.extractLsb' 0 16).toNat : ℚ) - 27315) / 100) d ∧ zeroOrNormal d)
    ∧ (missing s.pkt 10 2 → faultsOn (exec (.cvtt .temp) s) s.pkt 10 2)

/-- R119: CVTQ puts into FRES the value of the selected field, or of IARG, divided by 65536, exactly, as a pattern
that is +0.0 or normal; it changes nothing else. An unwritten byte of the field is the model fault. The fields lie at
the offsets qoff of R62. -/
def Obligations.CvtqIsExact : Prop :=
  ∀ s : State,
    (∀ p ∈ qFields, qoff p.1 = some p.2)
    ∧ (∀ (a : FSel) (off : Nat) (v : Word), qoff a = some off → holds s.pkt off (lanes .w4 v) →
      ∃ d, exec (.cvtq a) s = .next { s with fres := d }
        ∧ zeroOrNormal d ∧ valueQ d = (v.toInt : ℚ) / 65536)
    ∧ (∃ d, exec (.cvtq .arg) s = .next { s with fres := d }
        ∧ zeroOrNormal d ∧ valueQ d = (s.iarg.toInt : ℚ) / 65536)
    ∧ (∀ (a : FSel) (off : Nat), qoff a = some off → missing s.pkt off 4 →
      faultsOn (exec (.cvtq a) s) s.pkt off 4)

/-- R121, R122: ENCT writes to IRES, and for TEMP to PKT[10..11], what the real-number rule gives for FARG, raises
RANGE where the rule says so, clears VVALID for TEMP, and changes nothing else. It always completes. -/
def Obligations.EnctEncodesTemperature : Prop :=
  ∀ (s : State) (a : FSel), a = .temp ∨ a = .arg →
    ∃ t, exec (.enct a) s = .next t
      ∧ (a = .temp → stored s.pkt t.pkt 10
          [(encTempRule s.farg).1.extractLsb' 0 8, (encTempRule s.farg).1.extractLsb' 8 8])
      ∧ (a = .arg → ∀ x, t.pkt.byte? x = s.pkt.byte? x)
      ∧ t = { s with
          pkt := t.pkt
          ires := (encTempRule s.farg).1.setWidth 32
          status := { s.status with
            vvalid := if a = .temp then false else s.status.vvalid
            range := s.status.range || (encTempRule s.farg).2 } }

/-- R123, R124: ENCQ writes to IRES, and for FSEL 1 to 6 to the selected field, what the real-number rule gives for
FARG, raises RANGE where the rule says so, clears VVALID when it writes a field, and changes nothing else. It always
completes. The fields lie at the offsets qoff of R62. -/
def Obligations.EncqEncodesFixedPoint : Prop :=
  (∀ p ∈ qFields, qoff p.1 = some p.2)
  ∧ ∀ (s : State) (a : FSel), a ≠ .temp →
    ∃ t, exec (.encq a) s = .next t
      ∧ (∀ off, qoff a = some off → stored s.pkt t.pkt off (lanes .w4 (encQRule s.farg).1))
      ∧ (a = .arg → ∀ x, t.pkt.byte? x = s.pkt.byte? x)
      ∧ t = { s with
          pkt := t.pkt
          ires := (encQRule s.farg).1
          status := { s.status with
            vvalid := if a = .arg then s.status.vvalid else false
            range := s.status.range || (encQRule s.farg).2 } }

/-- The model's choice of log 14: a command term whose selector its encoding rules out is refused by name. -/
def Obligations.IllegalSelectorsAreRefused : Prop :=
  ∀ (s : State) (a : FSel),
    (a ≠ .temp → a ≠ .arg →
      exec (.cvtt a) s = .refused (.illegalSelector "CVTT") ∧ exec (.enct a) s = .refused (.illegalSelector "ENCT"))
    ∧ (a = .temp →
      exec (.cvtq a) s = .refused (.illegalSelector "CVTQ") ∧ exec (.encq a) s = .refused (.illegalSelector "ENCQ"))

/-! ### The conversions -/

/-- R9: rne64 gives the nearest binary64 value to every rational in range, and an infinity of its sign past it. -/
def Obligations.RoundingIsNearestEven : Prop :=
  ∀ x : Frac, 0 < x.den →
    (|x.toQ| < 2 ^ 1024 - 2 ^ 970 → isNearest x.toQ (rne64 x))
    ∧ (2 ^ 1024 - 2 ^ 970 ≤ x.toQ → rne64 x = 0x7FF0000000000000#64)
    ∧ (x.toQ ≤ -(2 ^ 1024 - 2 ^ 970) → rne64 x = 0xFFF0000000000000#64)

/-- R128: every raw temperature survives decoding and encoding, without RANGE. -/
def Obligations.TemperatureRoundTrip : Prop :=
  ∀ t : Half, encTemp (celsius t) = (t, false)

/-- R129: every Q15.16 pattern survives decoding and encoding, without RANGE. -/
def Obligations.FixedPointRoundTrip : Prop :=
  ∀ q : Word, encQ (q16 (s32 q)) = (q, false)

/-- R130: the source's four conversion bounds. -/
def Obligations.ConversionBounds : Prop :=
  celsius 0#16 = 0xC071126666666666#64 ∧ celsius 27315#16 = 0x0000000000000000#64
    ∧ q16 65536 = 0x3FF0000000000000#64 ∧ q16 (-65536) = 0xBFF0000000000000#64

/-- R125: the special inputs of the encoders: NaN, the infinities, and every zero and subnormal of either sign. -/
def Obligations.SpecialEncodeInputs : Prop :=
  (∀ d : Double, isNaN d = true → encTemp d = (0#16, true) ∧ encQ d = (0x00000000#32, true))
  ∧ encTemp 0x7FF0000000000000#64 = (65535#16, true) ∧ encQ 0x7FF0000000000000#64 = (0x7FFFFFFF#32, true)
  ∧ encTemp 0xFFF0000000000000#64 = (0#16, true) ∧ encQ 0xFFF0000000000000#64 = (0x80000000#32, true)
  ∧ ∀ d : Double, expBits d = 0 → encTemp d = (27315#16, false) ∧ encQ d = (0x00000000#32, false)

/-- R131: a packet that VALIDATE passes, decoded by CVTT TEMP and CVTQ 1 to 6 and rebuilt from the kept FRES values
by the encoder commands over its own bytes 4 to 9, comes back byte for byte, and VALIDATE gives Ok on it. -/
def Obligations.PacketRoundTrip : Prop :=
  ∀ (p u s : State) (q : Byte) (f : FSel → Double),
    exec .validate p = .next u → u.status.vres = .ok →
    exec (.cvtt .temp) p = .next { p with fres := f .temp } →
    (∀ a, a ≠ .temp → a ≠ .arg → exec (.cvtq a) p = .next { p with fres := f a }) →
    p.pkt.byte? 2 = some q → (∀ k, 4 ≤ k → k < 10 → s.pkt.byte? k = p.pkt.byte? k) →
    ∃ t, runCommands
        [ (.sethdr, none), (.setseq q, none), (.enct .temp, some (f .temp)),
          (.encq .gyro0, some (f .gyro0)), (.encq .gyro1, some (f .gyro1)), (.encq .gyro2, some (f .gyro2)),
          (.encq .accel0, some (f .accel0)), (.encq .accel1, some (f .accel1)),
          (.encq .accel2, some (f .accel2)), (.sealPkt, none) ] s = .next t
      ∧ (∀ k < 40, t.pkt.byte? k = p.pkt.byte? k)
      ∧ ∃ v, exec .validate t = .next v ∧ v.status.vres = .ok
end

