-- ==== Sys2Proof/Laws/State.lean ====
section
/-! SUPPORT. The record updates of State, one lemma per field per update, each true by rfl, so that no later proof
unfolds an update. -/

namespace Sys2Proof.Machine

@[simp] theorem pktPut_pkt (off : Nat) (bs : List Byte) (s : State) : (pktPut off bs s).pkt = s.pkt.puts off bs := rfl
@[simp] theorem pktPut_crcAcc (off : Nat) (bs : List Byte) (s : State) : (pktPut off bs s).crcAcc = s.crcAcc := rfl
@[simp] theorem pktPut_pcrc (off : Nat) (bs : List Byte) (s : State) : (pktPut off bs s).pcrc = s.pcrc := rfl
@[simp] theorem pktPut_iarg (off : Nat) (bs : List Byte) (s : State) : (pktPut off bs s).iarg = s.iarg := rfl
@[simp] theorem pktPut_ires (off : Nat) (bs : List Byte) (s : State) : (pktPut off bs s).ires = s.ires := rfl
@[simp] theorem pktPut_farg (off : Nat) (bs : List Byte) (s : State) : (pktPut off bs s).farg = s.farg := rfl
@[simp] theorem pktPut_fres (off : Nat) (bs : List Byte) (s : State) : (pktPut off bs s).fres = s.fres := rfl
@[simp] theorem pktPut_status (off : Nat) (bs : List Byte) (s : State) : (pktPut off bs s).status = { s.status with vvalid := false } := rfl
@[simp] theorem pktPut_ctrl (off : Nat) (bs : List Byte) (s : State) : (pktPut off bs s).ctrl = s.ctrl := rfl
@[simp] theorem pktPut_pend (off : Nat) (bs : List Byte) (s : State) : (pktPut off bs s).pend = s.pend := rfl
@[simp] theorem pktPut_agenda (off : Nat) (bs : List Byte) (s : State) : (pktPut off bs s).agenda = s.agenda := rfl
@[simp] theorem pktPut_answer (off : Nat) (bs : List Byte) (s : State) : (pktPut off bs s).answer = s.answer := rfl

@[simp] theorem raiseErr_pkt (f : ErrFlag) (s : State) : (raiseErr f s).pkt = s.pkt := rfl
@[simp] theorem raiseErr_crcAcc (f : ErrFlag) (s : State) : (raiseErr f s).crcAcc = s.crcAcc := rfl
@[simp] theorem raiseErr_pcrc (f : ErrFlag) (s : State) : (raiseErr f s).pcrc = s.pcrc := rfl
@[simp] theorem raiseErr_iarg (f : ErrFlag) (s : State) : (raiseErr f s).iarg = s.iarg := rfl
@[simp] theorem raiseErr_ires (f : ErrFlag) (s : State) : (raiseErr f s).ires = s.ires := rfl
@[simp] theorem raiseErr_farg (f : ErrFlag) (s : State) : (raiseErr f s).farg = s.farg := rfl
@[simp] theorem raiseErr_fres (f : ErrFlag) (s : State) : (raiseErr f s).fres = s.fres := rfl
@[simp] theorem raiseErr_status (f : ErrFlag) (s : State) : (raiseErr f s).status = s.status.raise f := rfl
@[simp] theorem raiseErr_ctrl (f : ErrFlag) (s : State) : (raiseErr f s).ctrl = s.ctrl := rfl
@[simp] theorem raiseErr_pend (f : ErrFlag) (s : State) : (raiseErr f s).pend = s.pend := rfl
@[simp] theorem raiseErr_agenda (f : ErrFlag) (s : State) : (raiseErr f s).agenda = s.agenda := rfl
@[simp] theorem raiseErr_answer (f : ErrFlag) (s : State) : (raiseErr f s).answer = s.answer := rfl

@[simp] theorem takeTurn_pkt (rest : List Event) (s : State) : (takeTurn rest s).pkt = s.pkt := rfl
@[simp] theorem takeTurn_crcAcc (rest : List Event) (s : State) : (takeTurn rest s).crcAcc = s.crcAcc := rfl
@[simp] theorem takeTurn_pcrc (rest : List Event) (s : State) : (takeTurn rest s).pcrc = s.pcrc := rfl
@[simp] theorem takeTurn_iarg (rest : List Event) (s : State) : (takeTurn rest s).iarg = s.iarg := rfl
@[simp] theorem takeTurn_ires (rest : List Event) (s : State) : (takeTurn rest s).ires = s.ires := rfl
@[simp] theorem takeTurn_farg (rest : List Event) (s : State) : (takeTurn rest s).farg = s.farg := rfl
@[simp] theorem takeTurn_fres (rest : List Event) (s : State) : (takeTurn rest s).fres = s.fres := rfl
@[simp] theorem takeTurn_status (rest : List Event) (s : State) : (takeTurn rest s).status = s.status := rfl
@[simp] theorem takeTurn_ctrl (rest : List Event) (s : State) : (takeTurn rest s).ctrl = s.ctrl := rfl
@[simp] theorem takeTurn_pend (rest : List Event) (s : State) : (takeTurn rest s).pend = s.pend := rfl
@[simp] theorem takeTurn_agenda (rest : List Event) (s : State) : (takeTurn rest s).agenda = rest := rfl
@[simp] theorem takeTurn_answer (rest : List Event) (s : State) : (takeTurn rest s).answer = none := rfl

@[simp] theorem answerWith_pkt (v : Word) (s : State) : (answerWith v s).pkt = s.pkt := rfl
@[simp] theorem answerWith_crcAcc (v : Word) (s : State) : (answerWith v s).crcAcc = s.crcAcc := rfl
@[simp] theorem answerWith_pcrc (v : Word) (s : State) : (answerWith v s).pcrc = s.pcrc := rfl
@[simp] theorem answerWith_iarg (v : Word) (s : State) : (answerWith v s).iarg = s.iarg := rfl
@[simp] theorem answerWith_ires (v : Word) (s : State) : (answerWith v s).ires = s.ires := rfl
@[simp] theorem answerWith_farg (v : Word) (s : State) : (answerWith v s).farg = s.farg := rfl
@[simp] theorem answerWith_fres (v : Word) (s : State) : (answerWith v s).fres = s.fres := rfl
@[simp] theorem answerWith_status (v : Word) (s : State) : (answerWith v s).status = s.status := rfl
@[simp] theorem answerWith_ctrl (v : Word) (s : State) : (answerWith v s).ctrl = s.ctrl := rfl
@[simp] theorem answerWith_pend (v : Word) (s : State) : (answerWith v s).pend = s.pend := rfl
@[simp] theorem answerWith_agenda (v : Word) (s : State) : (answerWith v s).agenda = s.agenda := rfl
@[simp] theorem answerWith_answer (v : Word) (s : State) : (answerWith v s).answer = some v := rfl

@[simp] theorem finish_pkt (s : State) : (finish s).pkt = s.pkt := rfl
@[simp] theorem finish_crcAcc (s : State) : (finish s).crcAcc = s.crcAcc := rfl
@[simp] theorem finish_pcrc (s : State) : (finish s).pcrc = s.pcrc := rfl
@[simp] theorem finish_iarg (s : State) : (finish s).iarg = s.iarg := rfl
@[simp] theorem finish_ires (s : State) : (finish s).ires = s.ires := rfl
@[simp] theorem finish_farg (s : State) : (finish s).farg = s.farg := rfl
@[simp] theorem finish_fres (s : State) : (finish s).fres = s.fres := rfl
@[simp] theorem finish_status (s : State) : (finish s).status = { s.status with busy := false, done := true } := rfl
@[simp] theorem finish_ctrl (s : State) : (finish s).ctrl = s.ctrl := rfl
@[simp] theorem finish_pend (s : State) : (finish s).pend = s.pend := rfl
@[simp] theorem finish_agenda (s : State) : (finish s).agenda = s.agenda := rfl
@[simp] theorem finish_answer (s : State) : (finish s).answer = s.answer := rfl

@[simp] theorem setVerdict_pkt (r : VRes) (s : State) : (setVerdict r s).pkt = s.pkt := rfl
@[simp] theorem setVerdict_crcAcc (r : VRes) (s : State) : (setVerdict r s).crcAcc = s.crcAcc := rfl
@[simp] theorem setVerdict_pcrc (r : VRes) (s : State) : (setVerdict r s).pcrc = s.pcrc := rfl
@[simp] theorem setVerdict_iarg (r : VRes) (s : State) : (setVerdict r s).iarg = s.iarg := rfl
@[simp] theorem setVerdict_ires (r : VRes) (s : State) : (setVerdict r s).ires = s.ires := rfl
@[simp] theorem setVerdict_farg (r : VRes) (s : State) : (setVerdict r s).farg = s.farg := rfl
@[simp] theorem setVerdict_fres (r : VRes) (s : State) : (setVerdict r s).fres = s.fres := rfl
@[simp] theorem setVerdict_status (r : VRes) (s : State) : (setVerdict r s).status = { s.status with vres := r, vvalid := true } := rfl
@[simp] theorem setVerdict_ctrl (r : VRes) (s : State) : (setVerdict r s).ctrl = s.ctrl := rfl
@[simp] theorem setVerdict_pend (r : VRes) (s : State) : (setVerdict r s).pend = s.pend := rfl
@[simp] theorem setVerdict_agenda (r : VRes) (s : State) : (setVerdict r s).agenda = s.agenda := rfl
@[simp] theorem setVerdict_answer (r : VRes) (s : State) : (setVerdict r s).answer = s.answer := rfl

@[simp] theorem rejectCommand_pkt (s : State) : (rejectCommand s).pkt = s.pkt := rfl
@[simp] theorem rejectCommand_crcAcc (s : State) : (rejectCommand s).crcAcc = s.crcAcc := rfl
@[simp] theorem rejectCommand_pcrc (s : State) : (rejectCommand s).pcrc = s.pcrc := rfl
@[simp] theorem rejectCommand_iarg (s : State) : (rejectCommand s).iarg = s.iarg := rfl
@[simp] theorem rejectCommand_ires (s : State) : (rejectCommand s).ires = s.ires := rfl
@[simp] theorem rejectCommand_farg (s : State) : (rejectCommand s).farg = s.farg := rfl
@[simp] theorem rejectCommand_fres (s : State) : (rejectCommand s).fres = s.fres := rfl
@[simp] theorem rejectCommand_status (s : State) : (rejectCommand s).status = { s.status with errIll := true, done := true } := rfl
@[simp] theorem rejectCommand_ctrl (s : State) : (rejectCommand s).ctrl = s.ctrl := rfl
@[simp] theorem rejectCommand_pend (s : State) : (rejectCommand s).pend = s.pend := rfl
@[simp] theorem rejectCommand_agenda (s : State) : (rejectCommand s).agenda = s.agenda := rfl
@[simp] theorem rejectCommand_answer (s : State) : (rejectCommand s).answer = s.answer := rfl

@[simp] theorem acceptCommand_pkt (w : Word) (s : State) : (acceptCommand w s).pkt = s.pkt := rfl
@[simp] theorem acceptCommand_crcAcc (w : Word) (s : State) : (acceptCommand w s).crcAcc = s.crcAcc := rfl
@[simp] theorem acceptCommand_pcrc (w : Word) (s : State) : (acceptCommand w s).pcrc = s.pcrc := rfl
@[simp] theorem acceptCommand_iarg (w : Word) (s : State) : (acceptCommand w s).iarg = s.iarg := rfl
@[simp] theorem acceptCommand_ires (w : Word) (s : State) : (acceptCommand w s).ires = s.ires := rfl
@[simp] theorem acceptCommand_farg (w : Word) (s : State) : (acceptCommand w s).farg = s.farg := rfl
@[simp] theorem acceptCommand_fres (w : Word) (s : State) : (acceptCommand w s).fres = s.fres := rfl
@[simp] theorem acceptCommand_status (w : Word) (s : State) : (acceptCommand w s).status = { s.status with busy := true } := rfl
@[simp] theorem acceptCommand_ctrl (w : Word) (s : State) : (acceptCommand w s).ctrl = s.ctrl := rfl
@[simp] theorem acceptCommand_pend (w : Word) (s : State) : (acceptCommand w s).pend = w := rfl
@[simp] theorem acceptCommand_agenda (w : Word) (s : State) : (acceptCommand w s).agenda = s.agenda := rfl
@[simp] theorem acceptCommand_answer (w : Word) (s : State) : (acceptCommand w s).answer = s.answer := rfl

@[simp] theorem crcDataWrite_pkt (n : Width) (v : Word) (s : State) : (crcDataWrite n v s).pkt = s.pkt := rfl
@[simp] theorem crcDataWrite_crcAcc (n : Width) (v : Word) (s : State) : (crcDataWrite n v s).crcAcc = crcRun s.crcAcc (leBytes n.bytes v) := rfl
@[simp] theorem crcDataWrite_pcrc (n : Width) (v : Word) (s : State) : (crcDataWrite n v s).pcrc = s.pcrc := rfl
@[simp] theorem crcDataWrite_iarg (n : Width) (v : Word) (s : State) : (crcDataWrite n v s).iarg = s.iarg := rfl
@[simp] theorem crcDataWrite_ires (n : Width) (v : Word) (s : State) : (crcDataWrite n v s).ires = s.ires := rfl
@[simp] theorem crcDataWrite_farg (n : Width) (v : Word) (s : State) : (crcDataWrite n v s).farg = s.farg := rfl
@[simp] theorem crcDataWrite_fres (n : Width) (v : Word) (s : State) : (crcDataWrite n v s).fres = s.fres := rfl
@[simp] theorem crcDataWrite_status (n : Width) (v : Word) (s : State) : (crcDataWrite n v s).status = s.status := rfl
@[simp] theorem crcDataWrite_ctrl (n : Width) (v : Word) (s : State) : (crcDataWrite n v s).ctrl = s.ctrl := rfl
@[simp] theorem crcDataWrite_pend (n : Width) (v : Word) (s : State) : (crcDataWrite n v s).pend = s.pend := rfl
@[simp] theorem crcDataWrite_agenda (n : Width) (v : Word) (s : State) : (crcDataWrite n v s).agenda = s.agenda := rfl
@[simp] theorem crcDataWrite_answer (n : Width) (v : Word) (s : State) : (crcDataWrite n v s).answer = s.answer := rfl

@[simp] theorem resetEvent_pkt (s : State) : (resetEvent s).pkt = [] := rfl
@[simp] theorem resetEvent_crcAcc (s : State) : (resetEvent s).crcAcc = 0xFFFFFFFF#32 := rfl
@[simp] theorem resetEvent_pcrc (s : State) : (resetEvent s).pcrc = 0#32 := rfl
@[simp] theorem resetEvent_iarg (s : State) : (resetEvent s).iarg = 0#32 := rfl
@[simp] theorem resetEvent_ires (s : State) : (resetEvent s).ires = 0#32 := rfl
@[simp] theorem resetEvent_farg (s : State) : (resetEvent s).farg = 0#64 := rfl
@[simp] theorem resetEvent_fres (s : State) : (resetEvent s).fres = 0#64 := rfl
@[simp] theorem resetEvent_status (s : State) : (resetEvent s).status = Status.reset := rfl
@[simp] theorem resetEvent_ctrl (s : State) : (resetEvent s).ctrl = { ie := false } := rfl
@[simp] theorem resetEvent_pend (s : State) : (resetEvent s).pend = 0#32 := rfl
@[simp] theorem resetEvent_agenda (s : State) : (resetEvent s).agenda = s.agenda := rfl
@[simp] theorem resetEvent_answer (s : State) : (resetEvent s).answer = none := rfl

@[simp] theorem Status.raise_busy (st : Status) (F : ErrFlag) : (st.raise F).busy = st.busy := by cases F <;> rfl
@[simp] theorem Status.raise_done (st : Status) (F : ErrFlag) : (st.raise F).done = st.done := by cases F <;> rfl
@[simp] theorem Status.raise_vres (st : Status) (F : ErrFlag) : (st.raise F).vres = st.vres := by cases F <;> rfl
@[simp] theorem Status.raise_vvalid (st : Status) (F : ErrFlag) : (st.raise F).vvalid = st.vvalid := by cases F <;> rfl
@[simp] theorem Status.raise_errIll_errIll (st : Status) : (st.raise .errIll).errIll = true := rfl
@[simp] theorem Status.raise_errBusy_errIll (st : Status) : (st.raise .errBusy).errIll = st.errIll := rfl
@[simp] theorem Status.raise_errAcc_errIll (st : Status) : (st.raise .errAcc).errIll = st.errIll := rfl
@[simp] theorem Status.raise_range_errIll (st : Status) : (st.raise .range).errIll = st.errIll := rfl
@[simp] theorem Status.raise_errIll_errBusy (st : Status) : (st.raise .errIll).errBusy = st.errBusy := rfl
@[simp] theorem Status.raise_errBusy_errBusy (st : Status) : (st.raise .errBusy).errBusy = true := rfl
@[simp] theorem Status.raise_errAcc_errBusy (st : Status) : (st.raise .errAcc).errBusy = st.errBusy := rfl
@[simp] theorem Status.raise_range_errBusy (st : Status) : (st.raise .range).errBusy = st.errBusy := rfl
@[simp] theorem Status.raise_errIll_errAcc (st : Status) : (st.raise .errIll).errAcc = st.errAcc := rfl
@[simp] theorem Status.raise_errBusy_errAcc (st : Status) : (st.raise .errBusy).errAcc = st.errAcc := rfl
@[simp] theorem Status.raise_errAcc_errAcc (st : Status) : (st.raise .errAcc).errAcc = true := rfl
@[simp] theorem Status.raise_range_errAcc (st : Status) : (st.raise .range).errAcc = st.errAcc := rfl
@[simp] theorem Status.raise_errIll_range (st : Status) : (st.raise .errIll).range = st.range := rfl
@[simp] theorem Status.raise_errBusy_range (st : Status) : (st.raise .errBusy).range = st.range := rfl
@[simp] theorem Status.raise_errAcc_range (st : Status) : (st.raise .errAcc).range = st.range := rfl
@[simp] theorem Status.raise_range_range (st : Status) : (st.raise .range).range = true := rfl

@[simp] theorem Status.write_busy (st : Status) (v : Word) : (st.write v).busy = st.busy := rfl
@[simp] theorem Status.write_done (st : Status) (v : Word) : (st.write v).done = (st.done && !v.getLsbD 1) := rfl
@[simp] theorem Status.write_vres (st : Status) (v : Word) : (st.write v).vres = st.vres := rfl
@[simp] theorem Status.write_vvalid (st : Status) (v : Word) : (st.write v).vvalid = st.vvalid := rfl
@[simp] theorem Status.write_errIll (st : Status) (v : Word) : (st.write v).errIll = (st.errIll && !v.getLsbD 8) := rfl
@[simp] theorem Status.write_errBusy (st : Status) (v : Word) : (st.write v).errBusy = (st.errBusy && !v.getLsbD 9) := rfl
@[simp] theorem Status.write_errAcc (st : Status) (v : Word) : (st.write v).errAcc = (st.errAcc && !v.getLsbD 10) := rfl
@[simp] theorem Status.write_range (st : Status) (v : Word) : (st.write v).range = (st.range && !v.getLsbD 11) := rfl

end Sys2Proof.Machine
end

