-- ==== Sys2Proof/Laws/Memory.lean ====
section
/-! SUPPORT. The packet buffer: what a byte reads after a write, what a region read answers, and that every write
keeps the canonical form (R16, R17, R39). -/

namespace Sys2Proof.Machine

@[simp] theorem Memory.byte?_nil (a : Nat) : Memory.byte? [] a = none := rfl

/-- A read after a write: the written byte at its offset, every other byte as before. -/
theorem Memory.byte?_put (m : Memory) (off : Nat) (b : Byte) (a : Nat) :
    (m.put off b).byte? a = if a = off then some b else m.byte? a := by
  induction m with
  | nil => simp [Memory.put, Memory.byte?, eq_comm]
  | cons c m ih =>
    obtain ⟨x, y⟩ := c
    simp only [Memory.put]
    split_ifs with h1 h2 <;> grind [Memory.byte?]

/-- The bytes after a write of consecutive bytes. -/
theorem Memory.byte?_puts (bs : List Byte) (m : Memory) (off a : Nat) :
    (m.puts off bs).byte? a = if off ≤ a ∧ a < off + bs.length then bs[a - off]? else m.byte? a := by
  induction bs generalizing m off with
  | nil => simp [Memory.puts]
  | cons b bs ih =>
    rw [Memory.puts, ih, Memory.byte?_put]
    rcases Nat.lt_trichotomy a off with h | h | h
    · rw [if_neg (by omega), if_neg (by omega), if_neg (by omega)]
    · subst h
      simp
    · obtain ⟨k, rfl⟩ : ∃ k, a = off + 1 + k := ⟨a - off - 1, by omega⟩
      have e : off + 1 + k - off = k + 1 := by omega
      have ne : off + 1 + k ≠ off := by omega
      simp only [e, Nat.add_sub_cancel_left, List.length_cons, List.getElem?_cons_succ, if_neg ne]
      by_cases hk : k < bs.length
      · rw [if_pos (by omega), if_pos (by omega)]
      · rw [if_neg (by omega), if_neg (by omega)]

/-- Every offset listed after a write is the written one or was listed before. -/
theorem Memory.mem_put {m : Memory} {off : Nat} {b : Byte} {c : Host.Cell} (h : c ∈ m.put off b) :
    c.1 = off ∨ c ∈ m := by
  induction m with
  | nil => simp_all [Memory.put]
  | cons d m ih =>
    obtain ⟨x, y⟩ := d
    simp only [Memory.put] at h
    split_ifs at h <;> grind

/-- A write inside the 40 bytes keeps the canonical form. -/
theorem Memory.put_wf {m : Memory} {off : Nat} {b : Byte} (hm : m.wf) (ho : off < Config.pktLen) :
    (m.put off b).wf := by
  obtain ⟨hs, hb⟩ := hm
  refine ⟨?_, fun c hc => ?_⟩
  · clear hb
    induction m with
    | nil => simp [Memory.put]
    | cons d m ih =>
      obtain ⟨x, y⟩ := d
      simp only [List.pairwise_cons] at hs
      simp only [Memory.put]
      split_ifs with h1 h2
      · simp only [List.pairwise_cons, List.mem_cons]
        grind
      · simp only [List.pairwise_cons]
        grind
      · simp only [List.pairwise_cons]
        refine ⟨fun c hc => ?_, ih hs.2⟩
        rcases Memory.mem_put hc with h | h
        · omega
        · exact hs.1 c h
  · rcases Memory.mem_put hc with h | h
    · omega
    · exact hb c h

/-- A write of consecutive bytes inside the 40 bytes keeps the canonical form. -/
theorem Memory.puts_wf {bs : List Byte} {m : Memory} {off : Nat} (hm : m.wf)
    (ho : off + bs.length ≤ Config.pktLen) : (m.puts off bs).wf := by
  induction bs generalizing m off with
  | nil => exact hm
  | cons b bs ih =>
    simp only [List.length_cons] at ho
    exact ih (Memory.put_wf hm (by omega)) (by omega)

/-- The buffer after reset is in canonical form. -/
theorem State.reset_pkt_wf : State.reset.pkt.wf := by decide

theorem Memory.readByte_ok {m : Memory} {off : Nat} {b : Byte} :
    m.readByte off = .ok b ↔ m.byte? off = some b := by
  unfold Memory.readByte
  split <;> simp_all

theorem Memory.readByte_error {m : Memory} {off : Nat} {f : Fault} :
    m.readByte off = .error f ↔ m.byte? off = none ∧ f = .unwrittenRead off := by
  unfold Memory.readByte
  cases m.byte? off <;> simp [eq_comm]

/-- What a region read answers: exactly the bytes that stand there. -/
theorem Memory.readBytes_ok {m : Memory} {n off : Nat} {bs : List Byte} :
    m.readBytes off n = .ok bs ↔ bs.length = n ∧ ∀ k < n, m.byte? (off + k) = bs[k]? := by
  induction n generalizing off bs with
  | zero => cases bs <;> simp [Memory.readBytes]
  | succ n ih =>
    simp only [Memory.readBytes]
    constructor
    · intro h
      split at h
      · cases h
      · rename_i b hb
        split at h
        · cases h
        · rename_i bs' hbs
          cases h
          obtain ⟨hl, hk⟩ := ih.1 hbs
          refine ⟨by simp [hl], fun k hk' => ?_⟩
          cases k with
          | zero => simpa using Memory.readByte_ok.1 hb
          | succ k =>
            have := hk k (by omega)
            rwa [show off + 1 + k = off + (k + 1) by omega] at this
    · rintro ⟨hl, hk⟩
      cases bs with
      | nil => simp at hl
      | cons b bs =>
        have h0 : m.readByte off = .ok b := Memory.readByte_ok.2 (by simpa using hk 0 (by omega))
        have h1 : m.readBytes (off + 1) n = .ok bs := by
          refine ih.2 ⟨by simpa using hl, fun k hk' => ?_⟩
          have := hk (k + 1) (by omega)
          simp only [List.getElem?_cons_succ] at this
          rw [← this]
          simp only [Nat.add_assoc, Nat.add_comm 1 k]
        simp [h0, h1]

/-- Where a region read faults: on the lowest unwritten byte. -/
theorem Memory.readBytes_error {m : Memory} {n off : Nat} {f : Fault} :
    m.readBytes off n = .error f ↔
      ∃ k < n, m.byte? (off + k) = none ∧ (∀ j < k, m.byte? (off + j) ≠ none) ∧ f = .unwrittenRead (off + k) := by
  induction n generalizing off with
  | zero => simp [Memory.readBytes]
  | succ n ih =>
    simp only [Memory.readBytes]
    cases h0 : m.readByte off with
    | error g =>
      obtain ⟨hn, rfl⟩ := Memory.readByte_error.1 h0
      constructor
      · rintro ⟨⟩
        exact ⟨0, by omega, by simpa using hn, by simp, by simp⟩
      · rintro ⟨k, hk, hk0, hlow, rfl⟩
        cases k with
        | zero => rfl
        | succ k => exact absurd hn (by simpa using hlow 0 (by omega))
    | ok b =>
      have hb := Memory.readByte_ok.1 h0
      constructor
      · intro h
        have : m.readBytes (off + 1) n = .error f := by
          revert h
          cases m.readBytes (off + 1) n <;> simp
        obtain ⟨k, hk, h1, h2, rfl⟩ := ih.1 this
        refine ⟨k + 1, by omega, ?_, fun j hj => ?_, ?_⟩
        · rw [← h1]; congr 1; omega
        · cases j with
          | zero => simp [hb]
          | succ j =>
            have := h2 j (by omega)
            rwa [show off + 1 + j = off + (j + 1) by omega] at this
        · congr 1; omega
      · rintro ⟨k, hk, h1, h2, rfl⟩
        cases k with
        | zero => simp [hb] at h1
        | succ k =>
          have : m.readBytes (off + 1) n = .error (.unwrittenRead (off + (k + 1))) := by
            refine ih.2 ⟨k, by omega, ?_, fun j hj => ?_, ?_⟩
            · rw [← h1]; congr 1; omega
            · have := h2 (j + 1) (by omega)
              rwa [show off + (j + 1) = off + 1 + j by omega] at this
            · congr 1; omega
          simp [this]

@[simp] theorem leBytes_length {w : Nat} (n : Nat) (v : BitVec w) : (leBytes n v).length = n := by
  induction n generalizing v with
  | zero => rfl
  | succ n ih => simp [leBytes, ih]

/-- Byte k of leBytes is v[8k+7:8k]. -/
theorem leBytes_getElem? {w : Nat} (n : Nat) (v : BitVec w) (k : Nat) :
    (leBytes n v)[k]? = if k < n then some (v.extractLsb' (8 * k) 8) else none := by
  induction n generalizing v k with
  | zero => simp [leBytes]
  | succ n ih =>
    cases k with
    | zero =>
      simp only [leBytes, List.getElem?_cons_zero, Nat.zero_lt_succ, if_true]
      congr 1
      ext i hi
      simp
    | succ k =>
      simp only [leBytes, List.getElem?_cons_succ, ih, Nat.add_lt_add_iff_right]
      split
      · congr 1
        ext i hi
        simp only [BitVec.getElem_extractLsb', BitVec.getLsbD_ushiftRight]
        congr 1
        omega
      · rfl

end Sys2Proof.Machine
end

