-- ==== Sys2Proof/Laws/Ops.lean ====
section
/-! SUPPORT. For each shared operation, once, everything it can answer. -/

namespace Sys2Proof.Machine

/-- A meaning behind a read answers a next state exactly when the read answers and the meaning does. -/
theorem withRead_next {α : Type} {r : Except Fault α} {k : α → Result} {t : State} :
    withRead r k = .next t ↔ ∃ a, r = .ok a ∧ k a = .next t := by
  cases r <;> simp [withRead]

/-- It faults on the read's fault or the meaning's own. -/
theorem withRead_fault {α : Type} {r : Except Fault α} {k : α → Result} {f : Fault} :
    withRead r k = .fault f ↔ r = .error f ∨ ∃ a, r = .ok a ∧ k a = .fault f := by
  cases r <;> simp [withRead]

/-- It refuses only if the meaning does. -/
theorem withRead_refused {α : Type} {r : Except Fault α} {k : α → Result} {x : Refusal} :
    withRead r k = .refused x ↔ ∃ a, r = .ok a ∧ k a = .refused x := by
  cases r <;> simp [withRead]

@[simp] theorem withRead_ok {α : Type} (a : α) (k : α → Result) : withRead (.ok a) k = k a := rfl

@[simp] theorem withRead_error {α : Type} (f : Fault) (k : α → Result) : withRead (.error f) k = .fault f := rfl

/-- A guarded write while BUSY = 1 (R80). -/
theorem busyGuard_busy {effect : State → State} {s : State} (h : s.status.busy = true) :
    busyGuard effect s = raiseErr .errBusy s := by simp [busyGuard, h]

/-- A guarded write while BUSY = 0. -/
theorem busyGuard_free {effect : State → State} {s : State} (h : s.status.busy = false) :
    busyGuard effect s = effect s := by simp [busyGuard, h]

/-- A PKTBUF write stores its bytes and leaves the rest. -/
theorem pktPut_stored (off : Nat) (bs : List Byte) (s : State) : stored s.pkt (pktPut off bs s).pkt off bs :=
  fun a => Memory.byte?_puts bs s.pkt off a

/-- le16 answers the little-endian value of two written bytes. -/
theorem Memory.le16_ok {m : Memory} {i : Nat} {v : Half} :
    m.le16 i = .ok v ↔ ∃ bs, m.readBytes i 2 = .ok bs ∧ v = BitVec.ofNat 16 (leValue bs) := by
  unfold Memory.le16
  cases m.readBytes i 2 <;> simp [eq_comm]

theorem Memory.le16_error {m : Memory} {i : Nat} {f : Fault} :
    m.le16 i = .error f ↔ m.readBytes i 2 = .error f := by
  unfold Memory.le16
  cases m.readBytes i 2 <;> simp

/-- le32 answers the little-endian value of four written bytes. -/
theorem Memory.le32_ok {m : Memory} {i : Nat} {v : Word} :
    m.le32 i = .ok v ↔ ∃ bs, m.readBytes i 4 = .ok bs ∧ v = BitVec.ofNat 32 (leValue bs) := by
  unfold Memory.le32
  cases m.readBytes i 4 <;> simp [eq_comm]

theorem Memory.le32_error {m : Memory} {i : Nat} {f : Fault} :
    m.le32 i = .error f ↔ m.readBytes i 4 = .error f := by
  unfold Memory.le32
  cases m.readBytes i 4 <;> simp

/-- The packet checksum is that of the 36 bytes, all written. -/
theorem Memory.packetCrc_ok {m : Memory} {c : Word} :
    m.packetCrc = .ok c ↔ ∃ bs, m.readBytes 0 36 = .ok bs ∧ c = crc32 bs := by
  unfold Memory.packetCrc Config.crcCover
  cases m.readBytes 0 36 <;> simp [eq_comm]

theorem Memory.packetCrc_error {m : Memory} {f : Fault} :
    m.packetCrc = .error f ↔ m.readBytes 0 36 = .error f := by
  unfold Memory.packetCrc Config.crcCover
  cases m.readBytes 0 36 <;> simp

/-- What the three checks can answer (R104): which branch was taken, and what it read. -/
theorem Memory.classify_ok {m : Memory} {r : VRes} {c : Option Word} :
    m.classify = .ok (r, c) ↔
      (m.hdrOK = .ok false ∧ r = .badHeader ∧ c = none)
        ∨ (m.hdrOK = .ok true ∧ m.seqOK = .ok false ∧ r = .badSequencer ∧ c = none)
        ∨ (m.hdrOK = .ok true ∧ m.seqOK = .ok true ∧ ∃ w good, m.crcStage = .ok (w, good) ∧ c = some w
          ∧ r = if good then .ok else .badCrc) := by
  unfold Memory.classify
  rcases m.hdrOK with f | (_ | _)
  · simp
  · simp [eq_comm]
  · rcases m.seqOK with f | (_ | _)
    · simp
    · simp [eq_comm]
    · rcases m.crcStage with f | ⟨w, _ | _⟩ <;> simp [eq_comm, and_comm]

/-- The operands of CVTT and CVTQ (R114, R117). -/
@[simp] theorem tempIn_temp (s : State) : tempIn s .temp = s.pkt.le16 10 := rfl

@[simp] theorem tempIn_arg (s : State) : tempIn s .arg = .ok (s.iarg.setWidth 16) := rfl

theorem qIn_field {s : State} {a : FSel} {off : Nat} (h : qoff a = some off) : qIn s a = s.pkt.le32 off := by
  simp [qIn, h]

@[simp] theorem qIn_arg (s : State) : qIn s .arg = .ok s.iarg := rfl

/-- The field store of ENCQ (R127). -/
theorem putQ_field {a : FSel} {off : Nat} (h : qoff a = some off) (r : Word) (s : State) :
    putQ a r s = pktPut off (leBytes 4 r) s := by simp [putQ, h]

@[simp] theorem putQ_arg (r : Word) (s : State) : putQ .arg r s = s := rfl

/-- The temperature store leaves everything but PKTBUF and VVALID. -/
theorem putTemp_eq (a : FSel) (r : Half) (s : State) :
    putTemp a r s = if a = .temp then pktPut 10 (leBytes 2 r) s else s := by
  cases a <;> rfl

/-- The RANGE flag after an encode (R137). -/
theorem raiseRangeIf_eq (f : Bool) (s : State) :
    raiseRangeIf f s = { s with status := { s.status with range := s.status.range || f } } := by
  cases f <;> simp [raiseRangeIf, raiseErr, Status.raise]

/-- The completion step answers a next state exactly when PEND decodes and the command does (R84). -/
theorem complete_next {s t : State} :
    complete s = .next t ↔ ∃ i u, decode s.pend = .ok i ∧ exec i s = .next u ∧ t = finish u := by
  unfold complete
  cases decode s.pend with
  | error e => simp
  | ok i => cases h : exec i s <;> simp [h, eq_comm]

/-- It faults exactly when the command does. -/
theorem complete_fault {s : State} {f : Fault} :
    complete s = .fault f ↔ ∃ i, decode s.pend = .ok i ∧ exec i s = .fault f := by
  unfold complete
  cases decode s.pend with
  | error e => simp
  | ok i => cases h : exec i s <;> simp [h]

/-- An access inside the window is decoded to its offset (R35). -/
theorem windowOffset_base {off : Nat} (h : off < Config.windowSize) :
    windowOffset (Config.base + off) = some off := by
  simp [windowOffset, h]

/-- What the block decodes (R35). -/
theorem windowOffset_some {addr off : Nat} :
    windowOffset addr = some off ↔ addr = Config.base + off ∧ off < Config.windowSize := by
  unfold windowOffset
  split <;> simp <;> omega

theorem busAccess_base {off : Nat} (h : off < Config.windowSize) (op : BusOp) (s : State) :
    busAccess (Config.base + off) op s = hostAccess off op s := by
  simp [busAccess, windowOffset_base h]

/-- No host access refuses. -/
theorem hostAccess_not_refused {off : Nat} {op : BusOp} {s : State} {x : Refusal} :
    hostAccess off op s ≠ .refused x := by
  cases op with
  | read n =>
    simp only [hostAccess, hostRead]
    split
    · split
      · rw [Ne, withRead_refused]
        rintro ⟨a, _, h⟩
        cases h
      · simp
    · simp
  | write n v =>
    simp only [hostAccess, hostWrite]
    split <;> simp

/-- A host write always answers a next state (R72). -/
theorem hostWrite_next (off : Nat) (n : Width) (v : Word) (s : State) :
    hostWrite off n v s = .next (if accOK off n .write then permittedWrite off n v s else raiseErr .errAcc s) := by
  unfold hostWrite
  split <;> rfl

/-- What a host read can answer (R71). -/
theorem hostRead_next {off : Nat} {n : Width} {s t : State} :
    hostRead off n s = .next t ↔
      (accOK off n .read = true ∧ off + n.bytes ≤ 0x28 ∧ ∃ v, pktRead off n s = .ok v ∧ t = answerWith v s)
        ∨ (accOK off n .read = true ∧ ¬ off + n.bytes ≤ 0x28 ∧ t = answerWith (regRead off s) s)
        ∨ (accOK off n .read = false ∧ t = answerWith 0#32 (raiseErr .errAcc s)) := by
  unfold hostRead
  cases accOK off n .read
  · simp [eq_comm]
  · simp only [if_true]
    split
    · rename_i h
      rw [withRead_next]
      simp [h, eq_comm]
    · rename_i h
      simp [h, eq_comm]

/-- Everything a permitted write can do (R72): a guarded write is dropped while BUSY = 1 (R80); otherwise it goes
to the one place its offset names. -/
theorem permittedWrite_cases {off : Nat} {n : Width} (v : Word) (s : State) (h : accOK off n .write = true) :
    (guarded off ∧ s.status.busy = true ∧ permittedWrite off n v s = raiseErr .errBusy s)
      ∨ (off + n.bytes ≤ 0x28 ∧ s.status.busy = false
          ∧ permittedWrite off n v s = pktPut off (leBytes n.bytes v) s)
      ∨ (off = 0x30 ∧ n = .w4 ∧ s.status.busy = false ∧ legal v = true
          ∧ permittedWrite off n v s = acceptCommand v s)
      ∨ (off = 0x30 ∧ n = .w4 ∧ s.status.busy = false ∧ legal v = false
          ∧ permittedWrite off n v s = rejectCommand s)
      ∨ (off = 0x34 ∧ n = .w4 ∧ permittedWrite off n v s = { s with status := s.status.write v })
      ∨ (off = 0x38 ∧ n = .w4 ∧ permittedWrite off n v s = { s with ctrl := s.ctrl.write v })
      ∨ (off = 0x40 ∧ n = .w4 ∧ permittedWrite off n v s = { s with crcAcc := v })
      ∨ (0x44 ≤ off ∧ off + n.bytes ≤ 0x48 ∧ permittedWrite off n v s = crcDataWrite n v s)
      ∨ (off = 0x50 ∧ n = .w4 ∧ s.status.busy = false ∧ permittedWrite off n v s = { s with iarg := v })
      ∨ (off = 0x58 ∧ n = .w4 ∧ s.status.busy = false
          ∧ permittedWrite off n v s = { s with farg := setLow s.farg v })
      ∨ (off = 0x5C ∧ n = .w4 ∧ s.status.busy = false
          ∧ permittedWrite off n v s = { s with farg := setHigh s.farg v }) := by
  have hn : 1 ≤ n.bytes := by cases n <;> decide
  by_cases hp : off + n.bytes ≤ 0x28
  · cases hb : s.status.busy
    · exact .inr (.inl ⟨hp, rfl, by simp [permittedWrite, hp, pktWrite, busyGuard, hb]⟩)
    · exact .inl ⟨.inl (by omega), rfl, by simp [permittedWrite, hp, pktWrite, busyGuard, hb]⟩
  · have hc : (0x44 ≤ off ∧ off + n.bytes ≤ 0x48) ∨ (n = .w4 ∧ (off = 0x30 ∨ off = 0x34 ∨ off = 0x38
        ∨ off = 0x40 ∨ off = 0x50 ∨ off = 0x58 ∨ off = 0x5C)) := by
      revert h
      cases n <;> simp [accOK, Width.bytes] at hp ⊢ <;> omega
    rcases hc with ⟨h1, h2⟩ | ⟨rfl, ho⟩
    · refine .inr (.inr (.inr (.inr (.inr (.inr (.inr (.inl ⟨h1, h2, ?_⟩)))))))
      unfold permittedWrite
      rw [if_neg hp, if_neg (by omega), if_neg (by omega), if_neg (by omega), if_neg (by omega), if_pos (by omega)]
    · cases hb : s.status.busy <;> cases hl : legal v <;>
        rcases ho with rfl | rfl | rfl | rfl | rfl | rfl | rfl <;>
        simp [guarded, permittedWrite, Width.bytes, cmdWrite, dataWrite, busyGuard, hb, hl]

end Sys2Proof.Machine
end

