-- ==== Sys2Proof/Laws/Step.lean ====
section
/-! SUPPORT. Once, everything a step can do (R10): every later proof takes its cases from here. -/

namespace Sys2Proof.Machine

/-- If a step answers a next state, one agent made it: nobody (an idle machine), the block by completing, the block
with nothing to do, a bus access outside the window, a host access, or a reset. -/
theorem step_cases {s t : State} (h : step s = .next t) :
    (s.agenda = [] ∧ s.status.busy = false ∧ t = s)
      ∨ (∃ rest i u, blockNext s rest ∧ s.status.busy = true ∧ decode s.pend = .ok i
          ∧ exec i (takeTurn rest s) = .next u ∧ t = finish u)
      ∨ (∃ rest, s.agenda = .block :: rest ∧ s.status.busy = false ∧ t = takeTurn rest s)
      ∨ (∃ addr op rest, s.agenda = .bus addr op :: rest ∧ windowOffset addr = none ∧ t = takeTurn rest s)
      ∨ (∃ off op rest, hostNext s off op rest ∧ hostAccess off op (takeTurn rest s) = .next t)
      ∨ (∃ rest, s.agenda = .reset :: rest ∧ t = resetEvent (takeTurn rest s)) := by
  unfold step agentStep at h
  split at h
  · rename_i ha
    split at h
    · rename_i hb
      obtain ⟨i, u, hd, he, rfl⟩ := complete_next.1 h
      exact .inr (.inl ⟨[], i, u, .inr ⟨ha, rfl⟩, hb, hd, he, rfl⟩)
    · rename_i hb
      cases h
      exact .inl ⟨ha, by simpa using hb, rfl⟩
  · rename_i rest ha
    unfold blockTurn at h
    split at h
    · rename_i hb
      obtain ⟨i, u, hd, he, rfl⟩ := complete_next.1 h
      exact .inr (.inl ⟨rest, i, u, .inl ha, hb, hd, he, rfl⟩)
    · rename_i hb
      cases h
      exact .inr (.inr (.inl ⟨rest, ha, by simpa using hb, rfl⟩))
  · rename_i addr op rest ha
    unfold busAccess at h
    split at h
    · rename_i off hw
      obtain ⟨rfl, hl⟩ := windowOffset_some.1 hw
      exact .inr (.inr (.inr (.inr (.inl ⟨off, op, rest, ⟨ha, hl⟩, h⟩))))
    · rename_i hw
      cases h
      exact .inr (.inr (.inr (.inl ⟨addr, op, rest, ha, hw, rfl⟩)))
  · rename_i rest ha
    cases h
    exact .inr (.inr (.inr (.inr (.inr ⟨rest, ha, rfl⟩))))

/-- The step when the host moves next (R71, R72). -/
theorem step_host {s : State} {off : Nat} {op : BusOp} {rest : List Event} (h : hostNext s off op rest) :
    step s = hostAccess off op (takeTurn rest s) := by
  simp [step, agentStep, h.1, busAccess_base h.2]

/-- The step when the block moves next with a command pending (R84). -/
theorem step_block {s : State} {rest : List Event} (h : blockNext s rest) (hb : s.status.busy = true) :
    step s = complete (takeTurn rest s) := by
  rcases h with h | ⟨h, rfl⟩ <;> simp [step, agentStep, blockTurn, h, hb]

/-- The step that takes a reset event (R147). -/
theorem step_reset {s : State} {rest : List Event} (h : s.agenda = .reset :: rest) :
    step s = .next (resetEvent (takeTurn rest s)) := by
  simp [step, agentStep, h]

/-- An idle machine stays as it is (log 1). -/
theorem step_idle {s : State} (ha : s.agenda = []) (hb : s.status.busy = false) : step s = .next s := by
  simp [step, agentStep, ha, hb]

/-- A word stored where the next step runs it: the step is the completion step of that word. -/
theorem step_withFetchWord (s : State) (nbits w : Nat) :
    step (s.withFetchWord nbits w) = complete (takeTurn s.agenda (s.withFetchWord nbits w)) := rfl

end Sys2Proof.Machine
end

