-- ==== Sys2Proof/Laws/HostProgram.lean ====
section
/-! SUPPORT. The host's pseudo-instructions (R70): what WAIT's test reads, which accesses the loop makes, what one poll
does, and that GETF forms FRES. -/

namespace Sys2Proof.Machine.HostProgram

/-- Bit 0 of STATUS is BUSY (R25). -/
theorem statusValue_busy (st : Status) : (statusValue st).getLsbD 0 = st.busy := by
  simp [statusValue, bit]

/-- The bit WAIT tests is BUSY (R25, R75). -/
@[simp] theorem goesOn_status (s : State) : goesOn (regRead STATUS s) = s.status.busy := statusValue_busy s.status

@[simp] theorem wait_zero (s : State) : wait 0 s = [.block, LW STATUS] := rfl

/-- With no command pending, the loop ends at its first poll. -/
theorem wait_idle {s : State} (k : Nat) (h : s.status.busy = false) : wait (k + 1) s = [LW STATUS] := by
  simp [wait, h]

/-- With a command pending, the loop polls `k` times, and once more after the block's turn. -/
theorem wait_busy {s : State} (h : s.status.busy = true) :
    ∀ k, wait k s = List.replicate k (LW STATUS) ++ [.block, LW STATUS]
  | 0 => rfl
  | k + 1 => by simp [wait, h, wait_busy h k, List.replicate_succ]

/-- One poll of WAIT: the value of STATUS, and nothing else changes (R42, R75). -/
theorem step_poll {s : State} {rest : List Event} (h : s.agenda = LW STATUS :: rest) :
    step s = .next (answerWith (regRead STATUS s) (takeTurn rest s)) :=
  step_host (off := STATUS) (op := .read .w4) ⟨h, by decide⟩

/-- What `-> v` says of a permitted read: it returns `v` and changes nothing (R42, R71). -/
theorem reads_permitted {off : Nat} {n : Width} {v : Word} {s : State} (h : accOK off n .read = true) :
    reads off n v s ↔ hostRead off n s = .next (answerWith v s) := by
  constructor
  · rintro ⟨t, ht, hv⟩
    obtain ⟨-, -, w, -, rfl⟩ | ⟨-, -, rfl⟩ | ⟨hb, -⟩ := hostRead_next.1 ht
    · cases hv
      exact ht
    · cases hv
      exact ht
    · simp [h] at hb
  · exact fun ht => ⟨_, ht, rfl⟩

/-- What `-> v` says of a bad read: `v` is 0, and the step raises ERR_ACC beside it (R71, R134). -/
theorem reads_bad {off : Nat} {n : Width} {v : Word} {s : State} (h : accOK off n .read = false) :
    reads off n v s ↔ v = 0#32 := by
  simp [reads, hostRead_next, h, answerWith, eq_comm (a := v)]

/-- GETF forms FRES from its two halves (R70, R79). -/
theorem getfResult_fres (s : State) : getfResult (regRead FRES_LO s) (regRead FRES_HI s) = s.fres := by
  simp only [getfResult, regRead, FRES_LO, FRES_HI]
  ext i hi
  simp only [BitVec.getElem_or, BitVec.getElem_shiftLeft, BitVec.getElem_setWidth,
    BitVec.getLsbD_extractLsb']
  by_cases h : i < 32
  · simp [h, BitVec.getLsbD_eq_getElem hi]
  · have : i - 32 < 32 := by omega
    simp [h, this, BitVec.getLsbD_eq_getElem hi, show 32 + (i - 32) = i by omega]

end Sys2Proof.Machine.HostProgram
end

