-- ==== Sys2Proof/Laws/PerInstr.lean ====
section
/-! SUPPORT. Facts about every command as syntax, one lemma per constructor. -/

/-- R60: an encoded command has RSVD zero, its own OP and its own A. -/
def Sys2Proof.Laws.EncodedFields.Statement (i : Sys2Proof.Instr) : Prop :=
  Sys2Proof.rsvdField (Sys2Proof.encode i) = 0#16 ∧ Sys2Proof.opField (Sys2Proof.encode i) = Sys2Proof.encodeOp i
    ∧ Sys2Proof.aField (Sys2Proof.encode i) = Sys2Proof.encodeA i

namespace Sys2Proof.Laws.EncodedFields

/-- The three fields of a word put together from them (R60). -/
theorem of_fields (a op : Byte) :
    rsvdField (0x0000#16 ++ a ++ op) = 0#16 ∧ opField (0x0000#16 ++ a ++ op) = op
      ∧ aField (0x0000#16 ++ a ++ op) = a := by
  refine ⟨?_, ?_, ?_⟩ <;> apply BitVec.eq_of_toNat_eq <;>
    simp only [rsvdField, opField, aField, BitVec.extractLsb'_toNat, BitVec.toNat_append, BitVec.toNat_ofNat,
      Nat.shiftRight_eq_div_pow] <;>
    rw [← Nat.shiftLeft_add_eq_or_of_lt op.isLt, ← Nat.shiftLeft_add_eq_or_of_lt a.isLt] <;>
    have ha := a.isLt <;> have ho := op.isLt <;> simp only [Nat.shiftLeft_eq] <;> omega

theorem nop : Statement .nop := of_fields _ _
theorem validate : Statement .validate := of_fields _ _
theorem crcpkt : Statement .crcpkt := of_fields _ _
theorem sealPkt : Statement .sealPkt := of_fields _ _
theorem sethdr : Statement .sethdr := of_fields _ _
theorem setseq (imm8 : Byte) : Statement (.setseq imm8) := of_fields _ _
theorem cvtt (fsel : FSel) : Statement (.cvtt fsel) := of_fields _ _
theorem cvtq (fsel : FSel) : Statement (.cvtq fsel) := of_fields _ _
theorem enct (fsel : FSel) : Statement (.enct fsel) := of_fields _ _
theorem encq (fsel : FSel) : Statement (.encq fsel) := of_fields _ _

end Sys2Proof.Laws.EncodedFields
end

