-- ==== Sys2Proof/Tests/Slice0.lean ====
section
/-! SUPPORT. The model's own tests. Expected values come from spec/95_test_vectors.md or from the encoding tables of
spec/30_encoding.md; the comment on each names the row. The `witness_` theorems show that the hypotheses of a
statement can all be met together. -/

namespace Sys2Proof.Machine.Tests

/-! ### Helpers -/

/-- The next state, if there is one. -/
def nextOf : Result → Option State
  | .next s => some s
  | .fault _ => none
  | .refused _ => none

/-- The fault, if there is one. -/
def faultOf : Result → Option Fault
  | .next _ => none
  | .fault f => some f
  | .refused _ => none

/-- The state after reset with bytes written from offset 0 on. -/
def loaded (bs : List Byte) : State := { State.reset with pkt := Memory.puts [] 0 bs }

/-- The sample packet (L1.1). -/
def sample : List Byte :=
  [0x74, 0x95, 0x1E, 0xE1, 0x00, 0x00, 0x00, 0x00, 0x00, 0x00, 0x81, 0x79, 0xCA, 0xF6, 0xFF, 0xFF, 0x85, 0xFC, 0xFF,
   0xFF, 0xC8, 0x01, 0x00, 0x00, 0x79, 0xEC, 0xFF, 0xFF, 0xDC, 0xE3, 0xFF, 0xFF, 0xF9, 0xC3, 0x09, 0x00, 0xBA, 0x11,
   0xDF, 0x0F]

/-- A state with a command word pending. -/
def pending (w : Word) (s : State) : State := { s with pend := w, status := { s.status with busy := true } }

/-- A state in which the host moves next. -/
def hostTurn (off : Nat) (op : BusOp) (rest : List Event) (s : State) : State :=
  { s with agenda := .bus (Config.base + off) op :: rest }

/-- A state with FARG set. -/
def withFarg (d : Double) : State := { State.reset with farg := d }

/-- A state with IARG set. -/
def withIarg (v : Word) : State := { State.reset with iarg := v }

/-! ### Well-formedness: an ill-formed term for each check -/

/-- R65: CVTT GYRO0 is illegal. -/
theorem test_cvtt_gyro0_ill_formed : (Instr.cvtt .gyro0).wellFormed = false := by decide

/-- R65: CVTQ TEMP is illegal. -/
theorem test_cvtq_temp_ill_formed : (Instr.cvtq .temp).wellFormed = false := by decide

/-- R61: ENCT takes TEMP or ARG only. -/
theorem test_enct_accel2_ill_formed : (Instr.enct .accel2).wellFormed = false := by decide

/-- R61: ENCQ does not take TEMP. -/
theorem test_encq_temp_ill_formed : (Instr.encq .temp).wellFormed = false := by decide

/-! ### Decoding: words put together from R60 to R62 by hand -/

/-- OP 0x00, A 0x00. -/
theorem test_decode_nop : decode 0x00000000#32 = .ok .nop := by decide

/-- OP 0x01. -/
theorem test_decode_validate : decode 0x00000001#32 = .ok .validate := by decide

/-- OP 0x02. -/
theorem test_decode_crcpkt : decode 0x00000002#32 = .ok .crcpkt := by decide

/-- OP 0x03. -/
theorem test_decode_seal : decode 0x00000003#32 = .ok .sealPkt := by decide

/-- OP 0x04. -/
theorem test_decode_sethdr : decode 0x00000004#32 = .ok .sethdr := by decide

/-- OP 0x05, A = imm8 = 0xFF (L2.4). -/
theorem test_decode_setseq : decode 0x0000FF05#32 = .ok (.setseq 0xFF#8) := by decide

/-- OP 0x10, FSEL 0 and 7; FSEL 1 is out of the set (R65). -/
theorem test_decode_cvtt : decode 0x00000010#32 = .ok (.cvtt .temp) ∧ decode 0x00000710#32 = .ok (.cvtt .arg)
    ∧ decode 0x00000110#32 = .error .selectorOutOfSet := by decide

/-- OP 0x11, FSEL 1 to 7 in order; FSEL 0 is out of the set and 8 names nothing (R62, R65). -/
theorem test_decode_cvtq : decode 0x00000111#32 = .ok (.cvtq .gyro0) ∧ decode 0x00000211#32 = .ok (.cvtq .gyro1)
    ∧ decode 0x00000311#32 = .ok (.cvtq .gyro2) ∧ decode 0x00000411#32 = .ok (.cvtq .accel0)
    ∧ decode 0x00000511#32 = .ok (.cvtq .accel1) ∧ decode 0x00000611#32 = .ok (.cvtq .accel2)
    ∧ decode 0x00000711#32 = .ok (.cvtq .arg) ∧ decode 0x00000011#32 = .error .selectorOutOfSet
    ∧ decode 0x00000811#32 = .error .selectorUnassigned := by decide

/-- OP 0x12 with FSEL 7 (R68: ENCT ARG) and 0. -/
theorem test_decode_enct : decode 0x00000712#32 = .ok (.enct .arg) ∧ decode 0x00000012#32 = .ok (.enct .temp) := by
  decide

/-- OP 0x13 with FSEL 1 and 6. -/
theorem test_decode_encq : decode 0x00000113#32 = .ok (.encq .gyro0) ∧ decode 0x00000613#32 = .ok (.encq .accel2) := by
  decide

/-- The illegal words of L2.10. -/
theorem test_decode_illegal : decode 0x00000006#32 = .error .reservedOp
    ∧ decode 0x00010001#32 = .error .rsvdNotZero ∧ decode 0x00000101#32 = .error .operandNotZero
    ∧ decode 0x00000014#32 = .error .reservedOp ∧ decode 0xFFFFFFFF#32 = .error .rsvdNotZero := by decide

/-- The encodings R68 writes out. -/
theorem test_encode_examples : encode (.setseq 0x1E#8) = 0x00001E05#32 ∧ encode (.cvtq .accel2) = 0x00000611#32
    ∧ encode (.enct .arg) = 0x00000712#32 := by decide

/-- The assembler text R68 and L2.4 use. -/
theorem test_asm : (Instr.setseq 0x1E#8).asm = "SETSEQ 0x1E" ∧ (Instr.cvtq .accel2).asm = "CVTQ ACCEL2" := by decide

/-! ### Operations -/

/-- L2.1: byte steps and table entries. -/
theorem test_crc_entries : upd 0xFFFFFFFF#32 0x00#8 = 0x2DFD1072#32 ∧ upd 0xFFFFFFFF#32 0x31#8 = 0x7C231048#32
    ∧ crcTable 0x01#8 = 0x77073096#32 ∧ crcTable 0x80#8 = 0xEDB88320#32 ∧ crcTable 0xFF#8 = 0x2D02EF8D#32 := by decide

/-- L2.1: "123456789". -/
theorem test_crc_check_value :
    crc32 [0x31, 0x32, 0x33, 0x34, 0x35, 0x36, 0x37, 0x38, 0x39] = 0xCBF43926#32 := by decide +kernel

/-- L2.10: SW 0x00, 0xE11E9574, then LB 0x01 reads 0x95. -/
theorem test_packet_write_read :
    ((nextOf (hostWrite 0x00 .w4 0xE11E9574#32 State.reset)).bind fun s =>
      (nextOf (hostRead 0x01 .w1 s)).map (·.answer)) = some (some 0x95#32) := by decide

/-- L2.10: LB 0x00 on an unwritten byte. -/
theorem test_unwritten_read : faultOf (hostRead 0x00 .w1 State.reset) = some (.unwrittenRead 0) := by decide

/-- L2.10: SW CMD, 0x00000110 gives STATUS 0x00000102; SW PCRC, 0 gives 0x00000400. -/
theorem test_interface_errors :
    (nextOf (hostWrite 0x30 .w4 0x00000110#32 State.reset)).map (fun s => statusValue s.status) = some 0x00000102#32
    ∧ (nextOf (hostWrite 0x4C .w4 0#32 State.reset)).map (fun s => statusValue s.status) = some 0x00000400#32 := by
  decide

/-- L2.10: with BUSY = 1, SH 0x01 raises ERR_ACC and not ERR_BUSY; SW CMD, 0xFFFFFFFF raises ERR_BUSY only. -/
theorem test_busy_priority :
    (nextOf (hostWrite 0x01 .w2 0#32 (pending 0#32 State.reset))).map (fun s => statusValue s.status) = some 0x401#32
    ∧ (nextOf (hostWrite 0x30 .w4 0xFFFFFFFF#32 (pending 0#32 State.reset))).map (fun s => statusValue s.status)
      = some 0x201#32 := by decide

/-- L2.1, P2: the stream port after "1234", "5678", "9". -/
theorem test_stream_port :
    (((nextOf (hostWrite 0x44 .w4 0x34333231#32 State.reset)).bind fun s =>
      nextOf (hostWrite 0x44 .w4 0x38373635#32 s)).bind fun s =>
      nextOf (hostWrite 0x44 .w1 0x39#32 s)).map crcOut = some 0xCBF43926#32 := by decide +kernel

/-- R70: WAIT with BUSY = 0 ends at its first poll; with BUSY = 1 it polls until the block's turn has come. -/
theorem test_wait : HostProgram.wait 3 State.reset = [HostProgram.LW 0x34]
    ∧ HostProgram.wait 1 (pending 0#32 State.reset) = [HostProgram.LW 0x34, .block, HostProgram.LW 0x34] :=
  ⟨HostProgram.wait_idle 2 rfl, HostProgram.wait_busy rfl 1⟩

/-- R70 and L1.1: GETF after CVTT TEMP on the sample. -/
theorem test_getf : HostProgram.getfResult 0x33333333#32 0x4042F333#32 = 0x4042F33333333333#64 := by decide

/-- P7: `LW CMD -> 0` and `LH STATUS -> 0`, both bad accesses, and `LW STATUS -> 0x00000400` after them. -/
theorem test_reads_bad : HostProgram.reads HostProgram.CMD .w4 0#32 State.reset
    ∧ HostProgram.reads HostProgram.STATUS .w2 0#32 State.reset
    ∧ HostProgram.reads HostProgram.STATUS .w4 0x400#32 (raiseErr .errAcc State.reset) :=
  ⟨(HostProgram.reads_bad (by decide)).2 rfl, (HostProgram.reads_bad (by decide)).2 rfl, ⟨_, rfl, rfl⟩⟩

/-- R86: block turns and resets that are left do not keep a program from having ended, a host access does. -/
theorem test_programEnded : programEnded { State.reset with agenda := [.block, .reset] }
    ∧ ¬ programEnded { State.reset with agenda := [.block, HostProgram.LW 0x34] } := by
  simp [programEnded, Event.isHost, HostProgram.LW, HostProgram.memRead, State.reset, Status.reset]

/-! ### Commands -/

/-- L2.10: NOP, then its completion step: STATUS = 0x00000002. -/
theorem test_nop : (nextOf (step (State.reset.withFetchWord 32 0))).map (fun s => statusValue s.status) = some 2#32 := by
  decide

/-- V1 of L2.3. -/
theorem test_validate_ok : (nextOf (step ((loaded sample).withFetchWord 32 1))).map
    (fun s => (statusValue s.status, s.pcrc)) = some (0x00000012#32, 0x0FDF11BA#32) := by decide +kernel

/-- V14 of L2.3: only PKT[0..1] are read. -/
theorem test_validate_short_circuit : (nextOf (step ((loaded [0x74, 0x94]).withFetchWord 32 1))).map
    (fun s => (statusValue s.status, s.pcrc)) = some (0x00000016#32, 0x00000000#32) := by decide

/-- L2.2: CRCPKT on the sample; a byte of PKT[0..35] unwritten is the model fault, PKT[36..39] are not read. -/
theorem test_crcpkt : (nextOf (exec .crcpkt (loaded (sample.take 36)))).map (·.pcrc) = some 0x0FDF11BA#32
    ∧ faultOf (exec .crcpkt (loaded (sample.take 20))) = some (.unwrittenRead 20) := by decide +kernel

/-- L2.2: SEAL on the sample with its last four bytes zero gives the sample. -/
theorem test_seal : (nextOf (exec .sealPkt (loaded (sample.take 36 ++ [0, 0, 0, 0])))).map (·.pkt)
    = some (loaded sample).pkt := by decide +kernel

/-- L2.4: SETHDR. -/
theorem test_sethdr : (nextOf (exec .sethdr State.reset)).map (·.pkt) = some [(0, 0x74#8), (1, 0x95#8)] := by decide

/-- L2.4: SETSEQ 0x5A. -/
theorem test_setseq : (nextOf (exec (.setseq 0x5A#8) State.reset)).map (·.pkt) = some [(2, 0x5A#8), (3, 0xA5#8)] := by
  decide

/-- L2.5: t = 1, and IARG = 0xFFFF6AB3, whose upper half is ignored. -/
theorem test_cvtt_arg : (nextOf (exec (.cvtt .arg) (withIarg 1#32))).map (·.fres) = some 0xC071123D70A3D70A#64
    ∧ (nextOf (exec (.cvtt .arg) (withIarg 0xFFFF6AB3#32))).map (·.fres) = some 0#64 := by decide

/-- L1.1: the sample's temperature. -/
theorem test_cvtt_temp : (nextOf (exec (.cvtt .temp) (loaded sample))).map (·.fres) = some 0x4042F33333333333#64 := by
  decide +kernel

/-- L2.6: the largest and the smallest raw value. -/
theorem test_cvtq_arg : (nextOf (exec (.cvtq .arg) (withIarg 0x7FFFFFFF#32))).map (·.fres)
      = some 0x40DFFFFFFFC00000#64
    ∧ (nextOf (exec (.cvtq .arg) (withIarg 0x80000000#32))).map (·.fres) = some 0xC0E0000000000000#64 := by decide

/-- L1.1: the sample's gyro[1] and accel[2]. -/
theorem test_cvtq_fields : (nextOf (exec (.cvtq .gyro1) (loaded sample))).map (·.fres) = some 0xBF8BD80000000000#64
    ∧ (nextOf (exec (.cvtq .accel2) (loaded sample))).map (·.fres) = some 0x402387F200000000#64 := by decide +kernel

/-- L2.7: 37.9 into TEMP. -/
theorem test_enct_temp : (nextOf (exec (.enct .temp) (withFarg 0x4042F33333333333#64))).map
    (fun s => (s.ires, s.pkt, s.status.range)) = some (0x00007981#32, [(10, 0x81#8), (11, 0x79#8)], false) := by decide

/-- L2.7: the tie of 0.375, and 382.25, which saturates. -/
theorem test_enct_arg : (nextOf (exec (.enct .arg) (withFarg 0x3FD8000000000000#64))).map
      (fun s => (s.ires, s.pkt, s.status.range)) = some (0x00006AD9#32, [], false)
    ∧ (nextOf (exec (.enct .arg) (withFarg 0x4077E40000000000#64))).map
      (fun s => (s.ires, s.status.range)) = some (0x0000FFFF#32, true) := by decide

/-- L2.8: 9.7655181884765625 into ACCEL2. -/
theorem test_encq_accel2 : (nextOf (exec (.encq .accel2) (withFarg 0x402387F200000000#64))).map (fun s => (s.ires, s.pkt))
    = some (0x0009C3F9#32, [(32, 0xF9#8), (33, 0xC3#8), (34, 0x09#8), (35, 0x00#8)]) := by decide

/-- L2.8: the tie -2.5 * 2^-16, and (2^31 - 0.5) / 2^16, which saturates. -/
theorem test_encq_arg : (nextOf (exec (.encq .arg) (withFarg 0xBF04000000000000#64))).map
      (fun s => (s.ires, s.status.range)) = some (0xFFFFFFFD#32, false)
    ∧ (nextOf (exec (.encq .arg) (withFarg 0x40DFFFFFFFE00000#64))).map
      (fun s => (s.ires, s.status.range)) = some (0x7FFFFFFF#32, true) := by decide

/-- L2.11, R148: a reset while a command is pending. -/
theorem test_reset : (nextOf (step { pending 1#32 (loaded sample) with agenda := [.reset] })).map
    (fun s => (statusValue s.status, crcOut s, s.pkt)) = some (0#32, 0#32, []) := by decide

/-! ### Witnesses: the hypotheses of each statement, met together -/

theorem hostTurn_next (off : Nat) (op : BusOp) (rest : List Event) (s : State) (h : off < Config.windowSize) :
    hostNext (hostTurn off op rest s) off op rest := ⟨rfl, h⟩

/-- The step of a state in which the host moves next. -/
theorem step_hostTurn (off : Nat) (op : BusOp) (rest : List Event) (s : State) (h : off < Config.windowSize) :
    step (hostTurn off op rest s) = hostAccess off op (takeTurn rest s) :=
  step_host (hostTurn_next off op rest s h)

/-- NOP pending, with one host read of STATUS before the agenda is empty. -/
def nopPolled : State := hostTurn 0x34 (.read .w4) [] (pending 0#32 State.reset)

/-- NOP pending with the block to move. -/
def nopTurn : State := { pending 0#32 State.reset with agenda := [.block] }

/-- A buffer whose header is wrong, with the verdict that says so. -/
def judged : State :=
  { loaded [0x00, 0x00] with status := { Status.reset with vres := .badHeader, vvalid := true }, agenda := [.block] }

theorem witness_DecodeInvertsEncode : (Instr.cvtq .gyro0).wellFormed = true ∧ (Instr.encq .arg).wellFormed = true
    ∧ (Instr.cvtt .temp).wellFormed = true ∧ (Instr.setseq 0xFF#8).wellFormed = true := by decide

theorem witness_EncodeInvertsDecode : decode 0x00000711#32 = .ok (.cvtq .arg) := by decide

theorem witness_StepRunsPendingCommand :
    (blockNext nopTurn [] ∧ nopTurn.status.busy = true ∧ decode nopTurn.pend = .ok .nop)
    ∧ (blockNext (pending 0#32 State.reset) [] ∧ (pending 0#32 State.reset).status.busy = true
      ∧ decode (pending 0#32 State.reset).pend = .ok .nop) := by decide

theorem witness_UnstoppedRunCompletesPendingCommand : ∃ t, nopPolled.status.busy = true ∧ onlyHost nopPolled.agenda
    ∧ Host.Core.run Sys2Proof.core (nopPolled.agenda.length + 1) nopPolled = .next t := by
  have h : step nopPolled = hostAccess 0x34 (.read .w4) (takeTurn [] (pending 0#32 State.reset)) :=
    step_hostTurn _ _ _ _ (by decide)
  refine ⟨finish (takeTurn [] (pending 0#32 State.reset)), rfl, by simp [onlyHost, nopPolled, hostTurn, Event.isHost], ?_⟩
  simp only [nopPolled, hostTurn, List.length_cons, List.length_nil, Host.Core.run, Sys2Proof.core]
  simp only [nopPolled, hostTurn] at h
  rw [h]
  rfl

theorem witness_PendingCommandIsUndisturbed : ∃ t, nopPolled.status.busy = true ∧ 1 ≤ nopPolled.agenda.length
    ∧ onlyHost (nopPolled.agenda.take 1) ∧ Host.Core.run Sys2Proof.core 1 nopPolled = .next t := by
  have h : step nopPolled = hostAccess 0x34 (.read .w4) (takeTurn [] (pending 0#32 State.reset)) :=
    step_hostTurn _ _ _ _ (by decide)
  refine ⟨answerWith 1#32 (takeTurn [] (pending 0#32 State.reset)), rfl, by decide,
    by simp [onlyHost, nopPolled, hostTurn, Event.isHost], ?_⟩
  simp only [Host.Core.run, Sys2Proof.core]
  rw [h]
  rfl

theorem witness_WaitEndsAtFirstIdlePoll :
    (∃ t, ({ State.reset with agenda := HostProgram.wait 3 State.reset } : State).agenda
        = HostProgram.wait 3 State.reset ++ []
      ∧ Host.Core.run Sys2Proof.core (HostProgram.wait 3 State.reset).length
        { State.reset with agenda := HostProgram.wait 3 State.reset } = .next t)
    ∧ ∃ t, ({ pending 0#32 State.reset with agenda := HostProgram.wait 0 (pending 0#32 State.reset) } : State).agenda
        = HostProgram.wait 0 (pending 0#32 State.reset) ++ []
      ∧ Host.Core.run Sys2Proof.core (HostProgram.wait 0 (pending 0#32 State.reset)).length
        { pending 0#32 State.reset with agenda := HostProgram.wait 0 (pending 0#32 State.reset) } = .next t := by
  refine ⟨⟨answerWith 0#32 State.reset, rfl, ?_⟩, ⟨answerWith 2#32 (finish (pending 0#32 State.reset)), rfl, ?_⟩⟩
  · rw [HostProgram.wait_idle 2 rfl]
    simp only [List.length_singleton, Host.Core.run, Sys2Proof.core]
    rw [HostProgram.step_poll rfl]
    rfl
  · simp only [HostProgram.wait_zero, List.length_cons, List.length_nil, Host.Core.run, Sys2Proof.core]
    rw [step_block (.inl rfl) rfl]
    simp only [show complete (takeTurn [HostProgram.LW HostProgram.STATUS]
      { pending 0#32 State.reset with agenda := [.block, HostProgram.LW HostProgram.STATUS] })
      = .next (finish { pending 0#32 State.reset with agenda := [HostProgram.LW HostProgram.STATUS] }) from rfl]
    rw [HostProgram.step_poll rfl]
    rfl

theorem witness_CrcStreamCommutesWithCompletion :
    (0x44 ≤ 0x44 ∧ 0x44 < 0x48 ∧ accOK 0x44 .w4 .write = true ∧ nopTurn.status.busy = true)
    ∧ (0x44 ≤ 0x47 ∧ 0x47 < 0x48 ∧ accOK 0x47 .w1 .write = true) := by decide

theorem witness_StepKeepsPacketCanonical : (loaded sample).pkt.wf ∧ step (loaded sample) = .next (loaded sample) :=
  ⟨by decide +kernel, rfl⟩

theorem witness_StepKeepsPendingLegal : ∃ t, pendingLegal nopTurn ∧ step nopTurn = .next t :=
  ⟨_, fun _ => by decide, rfl⟩

theorem witness_StepKeepsVerdictCurrent : ∃ t, verdictCurrent judged ∧ judged.status.vvalid = true
    ∧ step judged = .next t :=
  ⟨_, fun _ => ⟨none, rfl⟩, rfl, rfl⟩

theorem witness_StepKeepsFresNormal : ∃ t, fresNormal nopTurn ∧ step nopTurn = .next t := ⟨_, .inl rfl, rfl⟩

theorem witness_StepNeverRefuses : pendingLegal nopTurn := fun _ => by decide

theorem witness_FaultsAreUnwrittenReads : step (pending 2#32 State.reset) = .fault (.unwrittenRead 0) := rfl

theorem witness_DoneChangesOnly :
    (∃ t, step nopTurn = .next t ∧ nopTurn.status.done = false ∧ t.status.done = true)
    ∧ ∃ t, step { finish State.reset with agenda := [.reset] } = .next t
      ∧ (finish State.reset).status.done = true ∧ t.status.done = false :=
  ⟨⟨_, rfl, rfl, rfl⟩, ⟨_, rfl, rfl, rfl⟩⟩

theorem witness_InterruptChangesOnly :
    (∃ t, step (hostTurn 0x38 (.write .w4 1#32) [] (finish State.reset)) = .next t
      ∧ irq (finish State.reset) = false ∧ irq t = true)
    ∧ ∃ t, step { finish State.reset with ctrl := { ie := true }, agenda := [.reset] } = .next t
      ∧ irq { finish State.reset with ctrl := { ie := true } } = true ∧ irq t = false :=
  ⟨⟨_, step_hostTurn _ _ _ _ (by decide), rfl, rfl⟩, ⟨_, rfl, rfl, rfl⟩⟩

theorem witness_BusyChangesOnly :
    (∃ t, step (hostTurn 0x30 (.write .w4 0#32) [] State.reset) = .next t
      ∧ (hostTurn 0x30 (.write .w4 0#32) [] State.reset).status.busy = false ∧ t.status.busy = true)
    ∧ ∃ t, step nopTurn = .next t ∧ nopTurn.status.busy = true ∧ t.status.busy = false :=
  ⟨⟨_, step_hostTurn _ _ _ _ (by decide), rfl, rfl⟩, ⟨_, rfl, rfl, rfl⟩⟩

theorem witness_ErrorFlagsAreSticky : ∃ t, step { raiseErr .range State.reset with agenda := [.reset] } = .next t
    ∧ (raiseErr .range State.reset).status.flag .range = true ∧ t.status.flag .range = false :=
  ⟨_, rfl, rfl, rfl⟩

theorem witness_ErrorFlagCauses :
    (∃ t, step (hostTurn 0x7F (.read .w1) [] State.reset) = .next t ∧ t.status.flag .errAcc = true)
    ∧ (∃ t, step (hostTurn 0x50 (.write .w4 5#32) [] (pending 0#32 State.reset)) = .next t
      ∧ t.status.flag .errBusy = true)
    ∧ (∃ t, step (hostTurn 0x30 (.write .w4 6#32) [] State.reset) = .next t ∧ t.status.flag .errIll = true)
    ∧ (∃ t, step (pending 0x712#32 (withFarg posInf)) = .next t ∧ t.status.flag .range = true) :=
  ⟨⟨_, step_hostTurn _ _ _ _ (by decide), rfl⟩, ⟨_, step_hostTurn _ _ _ _ (by decide), rfl⟩,
    ⟨_, step_hostTurn _ _ _ _ (by decide), rfl⟩, ⟨_, rfl, rfl⟩⟩

theorem witness_VvalidTracksBuffer :
    (∃ t, step (pending 1#32 (loaded [0x00, 0x00])) = .next t ∧ t.status.vvalid = true)
    ∧ ∃ t, step (pending 4#32 State.reset) = .next t ∧ t.pkt.byte? 1 ≠ State.reset.pkt.byte? 1 :=
  ⟨⟨_, rfl, rfl⟩, ⟨_, rfl, by decide⟩⟩

theorem witness_CommandFrame : ∃ t, exec (.enct .temp) (withFarg posInf) = .next t ∧ t.status.range = true :=
  ⟨_, rfl, rfl⟩

theorem witness_CommandsAreStateless : ∃ t, (withIarg 7#32).pkt = (finish (withIarg 7#32)).pkt
    ∧ (withIarg 7#32).iarg = (finish (withIarg 7#32)).iarg ∧ (withIarg 7#32).farg = (finish (withIarg 7#32)).farg
    ∧ exec (.cvtq .arg) (finish (withIarg 7#32)) = .next t := ⟨_, rfl, rfl, rfl, rfl⟩

theorem witness_BadAccessRaisesErrAcc :
    (hostNext (hostTurn 0x7F (.read .w1) [] State.reset) 0x7F (.read .w1) []
      ∧ accOK 0x7F (BusOp.read .w1).width (BusOp.read .w1).dir = false)
    ∧ (hostNext (hostTurn 0x28 (.write .w4 0#32) [] State.reset) 0x28 (.write .w4 0#32) []
      ∧ accOK 0x28 (BusOp.write .w4 0#32).width (BusOp.write .w4 0#32).dir = false) :=
  ⟨⟨hostTurn_next _ _ _ _ (by decide), by decide⟩, ⟨hostTurn_next _ _ _ _ (by decide), by decide⟩⟩

theorem witness_ReadsHaveNoSideEffects : ∃ t u,
    hostNext (hostTurn 0x48 (.read .w4) [.bus (Config.base + 0x48) (.read .w4)] State.reset) 0x48 (.read .w4)
      [.bus (Config.base + 0x48) (.read .w4)]
    ∧ step (hostTurn 0x48 (.read .w4) [.bus (Config.base + 0x48) (.read .w4)] State.reset) = .next t
    ∧ accOK 0x48 .w4 .read = true ∧ step t = .next u :=
  ⟨_, _, hostTurn_next _ _ _ _ (by decide), step_hostTurn _ _ _ _ (by decide), by decide,
    step_host (off := 0x48) (op := .read .w4) (rest := []) ⟨rfl, by decide⟩⟩

theorem witness_OutsideWindowIsIgnored :
    ({ State.reset with agenda := [.bus (Config.base + 128) (.read .w4)] } : State).agenda
      = .bus (Config.base + 128) (.read .w4) :: [] ∧ Config.base + 128 ≤ Config.base + 128 := ⟨rfl, Nat.le_refl _⟩

theorem witness_PacketReads :
    (hostNext (hostTurn 0x24 (.read .w4) [] (loaded sample)) 0x24 (.read .w4) [] ∧ accOK 0x24 .w4 .read = true
      ∧ 0x24 + Width.w4.bytes ≤ 0x28
      ∧ ∀ k < Width.w4.bytes, (loaded sample).pkt.byte? (0x24 + k) = some (sample.getD (0x24 + k) 0))
    ∧ (hostNext (hostTurn 0x27 (.read .w1) [] State.reset) 0x27 (.read .w1) [] ∧ accOK 0x27 .w1 .read = true
      ∧ 0x27 + Width.w1.bytes ≤ 0x28 ∧ missing State.reset.pkt 0x27 Width.w1.bytes) :=
  ⟨⟨hostTurn_next _ _ _ _ (by decide), by decide, by decide, by decide +kernel⟩,
    ⟨hostTurn_next _ _ _ _ (by decide), by decide, by decide, by decide⟩⟩

theorem witness_PacketWrites :
    (hostNext (hostTurn 0x00 (.write .w4 7#32) [] nopTurn) 0x00 (.write .w4 7#32) []
      ∧ accOK 0x00 .w4 .write = true ∧ 0x00 + Width.w4.bytes ≤ 0x28
      ∧ (hostTurn 0x00 (.write .w4 7#32) [] nopTurn).status.busy = true)
    ∧ (hostNext (hostTurn 0x27 (.write .w1 7#32) [] State.reset) 0x27 (.write .w1 7#32) []
      ∧ accOK 0x27 .w1 .write = true ∧ 0x27 + Width.w1.bytes ≤ 0x28
      ∧ (hostTurn 0x27 (.write .w1 7#32) [] State.reset).status.busy = false) :=
  ⟨⟨hostTurn_next _ _ _ _ (by decide), by decide, by decide, rfl⟩,
    ⟨hostTurn_next _ _ _ _ (by decide), by decide, by decide, rfl⟩⟩

theorem witness_StatusReads : hostNext (hostTurn 0x34 (.read .w4) [] judged) 0x34 (.read .w4) [] :=
  hostTurn_next _ _ _ _ (by decide)

theorem witness_StatusWriteClears :
    hostNext (hostTurn 0x34 (.write .w4 0xF02#32) [] nopTurn) 0x34 (.write .w4 0xF02#32) [] :=
  hostTurn_next _ _ _ _ (by decide)

theorem witness_CtrlHoldsInterruptEnable :
    hostNext (hostTurn 0x38 (.write .w4 1#32) [] nopTurn) 0x38 (.write .w4 1#32) []
    ∧ hostNext (hostTurn 0x38 (.read .w4) [] nopTurn) 0x38 (.read .w4) [] :=
  ⟨hostTurn_next _ _ _ _ (by decide), hostTurn_next _ _ _ _ (by decide)⟩

theorem witness_OperandRegisterWrites :
    (hostNext (hostTurn 0x50 (.write .w4 1#32) [] nopTurn) 0x50 (.write .w4 1#32) []
      ∧ (hostTurn 0x50 (.write .w4 1#32) [] nopTurn).status.busy = true)
    ∧ (hostNext (hostTurn 0x5C (.write .w4 1#32) [] State.reset) 0x5C (.write .w4 1#32) []
      ∧ (hostTurn 0x5C (.write .w4 1#32) [] State.reset).status.busy = false) :=
  ⟨⟨hostTurn_next _ _ _ _ (by decide), rfl⟩, ⟨hostTurn_next _ _ _ _ (by decide), rfl⟩⟩

theorem witness_DataRegisterReads :
    (hostNext (hostTurn 0x4C (.read .w4) [] State.reset) 0x4C (.read .w4) []
      ∧ ((0x4C, 0#32) : Nat × Word) = (0x4C, State.reset.pcrc))
    ∧ (hostNext (hostTurn 0x64 (.read .w4) [] State.reset) 0x64 (.read .w4) []
      ∧ ((0x64, 0#32) : Nat × Word) = (0x64, State.reset.fres.extractLsb' 32 32)) :=
  ⟨⟨hostTurn_next _ _ _ _ (by decide), by decide⟩, ⟨hostTurn_next _ _ _ _ (by decide), by decide⟩⟩

theorem witness_CommandWrites :
    hostNext (hostTurn 0x30 (.write .w4 6#32) [] State.reset) 0x30 (.write .w4 6#32) [] :=
  hostTurn_next _ _ _ _ (by decide)

theorem witness_ResetGivesTheResetValues :
    ({ nopTurn with agenda := [.reset] } : State).agenda = .reset :: [] ∧ nopTurn.status.busy = true := ⟨rfl, rfl⟩

theorem witness_CrcStreamPort :
    hostNext (hostTurn 0x40 (.write .w4 1#32) [] nopTurn) 0x40 (.write .w4 1#32) []
    ∧ (hostNext (hostTurn 0x47 (.write .w1 1#32) [] nopTurn) 0x47 (.write .w1 1#32) [] ∧ 0x44 ≤ 0x47 ∧ 0x47 < 0x48
      ∧ accOK 0x47 .w1 .write = true)
    ∧ hostNext (hostTurn 0x40 (.read .w4) [] nopTurn) 0x40 (.read .w4) []
    ∧ hostNext (hostTurn 0x48 (.read .w4) [] nopTurn) 0x48 (.read .w4) [] :=
  ⟨hostTurn_next _ _ _ _ (by decide),
    ⟨hostTurn_next _ _ _ _ (by decide), by decide, by decide, by decide⟩,
    hostTurn_next _ _ _ _ (by decide), hostTurn_next _ _ _ _ (by decide)⟩

/-- Two writes of a stream: two bytes at once, then one. -/
def stream : List (Nat × Width × Word) := [(0x46, .w2, 0x3231#32), (0x47, .w1, 0x33#32)]

theorem witness_StreamAgreesWithOneShot :
    State.reset.crcAcc = 0xFFFFFFFF#32
    ∧ (∀ w ∈ stream, 0x44 ≤ w.1 ∧ w.1 < 0x48 ∧ accOK w.1 w.2.1 .write = true)
    ∧ ({ State.reset with agenda := stream.map (fun w => .bus (Config.base + w.1) (.write w.2.1 w.2.2)) } : State).agenda
      = stream.map (fun w => .bus (Config.base + w.1) (.write w.2.1 w.2.2)) := ⟨rfl, by decide, rfl⟩

theorem witness_SingleBitErrorIsDetected :
    0 < ([0x31] : List Byte).length ∧ 7 < 8
    ∧ ((loaded sample).pkt.classify = .ok (.ok, some 0x0FDF11BA#32) ∧ 4 ≤ 35 ∧ 35 ≤ 35
      ∧ (loaded sample).pkt.byte? 35 = some 0x00#8) ∧ (loaded sample).pkt.byte? 4 = some 0x00#8 := by
  decide +kernel

theorem witness_ResidueIdentity : (List.replicate 36 (0#8)).length = 36 := by decide

theorem witness_NopCompletes : blockNext nopTurn [] ∧ nopTurn.status.busy = true ∧ nopTurn.pend = 0x00000000#32 := by
  decide

theorem witness_CrcpktComputesPacketCrc :
    ((sample.take 36).length = 36 ∧ holds (loaded sample).pkt 0 (sample.take 36))
    ∧ missing (loaded (sample.take 35)).pkt 0 36 := by decide +kernel

theorem witness_SealWritesPacketCrc :
    ((sample.take 36).length = 36 ∧ holds (loaded (sample.take 36)).pkt 0 (sample.take 36))
    ∧ missing State.reset.pkt 0 36 := by decide +kernel

theorem witness_ValidateClassifies :
    ((loaded [0x74, 0x94]).pkt.byte? 0 = some 0x74#8 ∧ (loaded [0x74, 0x94]).pkt.byte? 1 = some 0x94#8
      ∧ ¬((0x74#8 : Byte) = 0x74#8 ∧ (0x94#8 : Byte) = 0x95#8))
    ∧ (holds (loaded [0x74, 0x95, 0x1E, 0xE0]).pkt 0 [0x74#8, 0x95#8, 0x1E#8, 0xE0#8]
      ∧ (0x1E#8 : Byte) ^^^ 0xE0#8 ≠ 0xFF#8)
    ∧ (((sample.take 36).drop 4).length = 32 ∧ holds (loaded sample).pkt 0
      ([0x74#8, 0x95#8, 0x1E#8, 0x1E#8 ^^^ 0xFF#8] ++ (sample.take 36).drop 4 ++ lanes .w4 0x0FDF11BA#32)) := by
  decide +kernel

theorem witness_ValidateClassifies_faults :
    exec .validate State.reset = .fault (.unwrittenRead 0)
    ∧ exec .validate (loaded [0x74, 0x95]) = .fault (.unwrittenRead 2)
    ∧ exec .validate (loaded [0x74, 0x95, 0x1E, 0xE1]) = .fault (.unwrittenRead 4) := ⟨rfl, rfl, rfl⟩

theorem witness_ValidateClassifies_missing :
    missing (loaded [0x74]).pkt 0 2
    ∧ (holds (loaded [0x74, 0x95, 0x1E]).pkt 0 [0x74#8, 0x95#8] ∧ missing (loaded [0x74, 0x95, 0x1E]).pkt 2 2)
    ∧ (holds (loaded (sample.take 39)).pkt 0 [0x74#8, 0x95#8, 0x1E#8, 0x1E#8 ^^^ 0xFF#8]
      ∧ missing (loaded (sample.take 39)).pkt 4 36) := by decide +kernel

theorem witness_CvttIsCorrectlyRounded :
    holds (loaded sample).pkt 10 [0x81#8, 0x79#8] ∧ missing (loaded (sample.take 11)).pkt 10 2 := by decide +kernel

theorem witness_CvtqIsExact :
    (qoff .gyro0 = some 12 ∧ holds (loaded sample).pkt 12 (lanes .w4 0xFFFFF6CA#32))
    ∧ (qoff .accel2 = some 32 ∧ holds (loaded sample).pkt 32 (lanes .w4 0x0009C3F9#32))
    ∧ (qoff .accel2 = some 32 ∧ missing (loaded (sample.take 35)).pkt 32 4) := by decide +kernel

theorem witness_EnctEncodesTemperature : FSel.temp = .temp ∨ FSel.temp = .arg := .inl rfl

theorem witness_EncqEncodesFixedPoint : FSel.gyro0 ≠ .temp ∧ FSel.arg ≠ .temp := by decide

theorem witness_IllegalSelectorsAreRefused : FSel.gyro0 ≠ .temp ∧ FSel.gyro0 ≠ .arg ∧ FSel.temp = .temp := by decide

theorem witness_RoundingIsNearestEven :
    (0 < (exactCelsius 0#16).den ∧ |(exactCelsius 0#16).toQ| < 2 ^ 1024 - 2 ^ 970)
    ∧ (0 < (Frac.mk (2 ^ 1024 - 2 ^ 970) 1).den ∧ 2 ^ 1024 - 2 ^ 970 ≤ (Frac.mk (2 ^ 1024 - 2 ^ 970) 1).toQ)
    ∧ (Frac.mk (-(2 ^ 1024 - 2 ^ 970)) 1).toQ ≤ -(2 ^ 1024 - 2 ^ 970) := by
  refine ⟨⟨by decide, ?_⟩, ⟨by decide, ?_⟩, ?_⟩
  · have h : (2 : ℚ) ^ 1024 = 2 ^ 970 * 2 ^ 54 := by rw [← pow_add]
    have h' : (2 : ℚ) ^ 10 ≤ 2 ^ 970 := pow_le_pow_right₀ (by norm_num) (by norm_num)
    have e : |(exactCelsius 0#16).toQ| = 27315 / 100 := by
      norm_num [Frac.toQ, exactCelsius, Config.tempOffset, Config.tempScale]
    rw [e, h]
    generalize (2 : ℚ) ^ 970 = x at h'
    norm_num at h' ⊢
    linarith
  · norm_num [Frac.toQ]
  · norm_num [Frac.toQ]

theorem witness_SpecialEncodeInputs : isNaN 0x7FF0000000000001#64 = true ∧ expBits 0x8000000000000001#64 = 0 := by
  decide

/-- The FRES values that decoding the sample gives (L1.1). -/
def sampleFres : FSel → Double
  | .temp => 0x4042F33333333333#64
  | .gyro0 => 0xBFA26C0000000000#64
  | .gyro1 => 0xBF8BD80000000000#64
  | .gyro2 => 0x3F7C800000000000#64
  | .accel0 => 0xBFB3870000000000#64
  | .accel1 => 0xBFBC240000000000#64
  | .accel2 => 0x402387F200000000#64
  | .arg => 0#64

/-- An outcome that is a given next state, as a decidable fact. -/
theorem eq_next_of_nextOf {r : Result} {t : State} (h : nextOf r = some t) : r = .next t := by
  cases r <;> simp_all [nextOf]

theorem witness_PacketRoundTrip : ∃ u, exec .validate (loaded sample) = .next u ∧ u.status.vres = .ok
    ∧ exec (.cvtt .temp) (loaded sample) = .next { loaded sample with fres := sampleFres .temp }
    ∧ (∀ a, a ≠ .temp → a ≠ .arg →
      exec (.cvtq a) (loaded sample) = .next { loaded sample with fres := sampleFres a })
    ∧ (loaded sample).pkt.byte? 2 = some 0x1E#8
    ∧ (∀ k, 4 ≤ k → k < 10 → (loaded (sample.take 10)).pkt.byte? k = (loaded sample).pkt.byte? k) := by
  refine ⟨setVerdict .ok { loaded sample with pcrc := 0x0FDF11BA#32 }, eq_next_of_nextOf (by decide +kernel), rfl,
    eq_next_of_nextOf (by decide +kernel), fun a h1 h2 => eq_next_of_nextOf ?_, by decide +kernel, ?_⟩
  · cases a <;> first | contradiction | decide +kernel
  · intro k h1 h2
    interval_cases k <;> decide +kernel

end Sys2Proof.Machine.Tests
end

