-- ==== Sys2Proof/Proofs/Rounding.lean ====
section
/-! SUPPORT. O54: rne64 against R9. Every finite pattern stands on a grid of units `ulp (scale d)`. A positive rational
is rounded at the grid of its own binade (`RoundedAt`), and that rounding is nearest among the values of all grids; the
pattern of the result denotes it, and the sign is added at the end (`flipSign`). -/

namespace Sys2Proof.Machine

/-! ### The fields of a pattern -/

/-- The value of a significand's last bit at a scale (`scale`). -/
def ulp (j : ℕ) : ℚ := 2 ^ ((j : ℤ) - 1074)

/-- The pattern with the other sign. -/
def flipSign (d : Double) : Double := d + 0x8000000000000000#64

theorem expBits_eq (d : Double) : expBits d = d.toNat / 2 ^ 52 % 2 ^ 11 := by
  simp [expBits, BitVec.extractLsb'_toNat, Nat.shiftRight_eq_div_pow]

theorem fracBits_eq (d : Double) : fracBits d = d.toNat % 2 ^ 52 := by
  simp [fracBits, BitVec.extractLsb'_toNat]

theorem signBit_eq (d : Double) : signBit d = decide (2 ^ 63 ≤ d.toNat) :=
  (BitVec.msb_eq_getLsbD_last d).symm.trans (BitVec.msb_eq_decide d)

theorem toNat_flipSign (d : Double) : (flipSign d).toNat = (d.toNat + 2 ^ 63) % 2 ^ 64 := by
  rw [flipSign, BitVec.toNat_add, BitVec.toNat_ofNat, Nat.add_mod_mod,
    show 0x8000000000000000 = 2 ^ 63 by norm_num]

@[simp] theorem expBits_flipSign (d : Double) : expBits (flipSign d) = expBits d := by
  rw [expBits_eq, expBits_eq, toNat_flipSign]
  omega

@[simp] theorem fracBits_flipSign (d : Double) : fracBits (flipSign d) = fracBits d := by
  rw [fracBits_eq, fracBits_eq, toNat_flipSign]
  omega

@[simp] theorem signBit_flipSign (d : Double) : signBit (flipSign d) = !signBit d := by
  rw [signBit_eq, signBit_eq, toNat_flipSign, ← decide_not, decide_eq_decide]
  omega

@[simp] theorem valueQ_flipSign (d : Double) : valueQ (flipSign d) = -valueQ d := by
  unfold valueQ
  rw [signBit_flipSign, expBits_flipSign, fracBits_flipSign, ← neg_mul]
  cases signBit d <;> simp

/-- Setting the sign bit of a pattern that has none is flipping it. -/
theorem signMask_or_ofNat {k : ℕ} (hk : k < 2 ^ 63) :
    0x8000000000000000#64 ||| BitVec.ofNat 64 k = flipSign (BitVec.ofNat 64 k) := by
  apply BitVec.eq_of_toNat_eq
  have hor : 2 ^ 63 ||| k = 2 ^ 63 + k := (Nat.two_pow_add_eq_or_of_lt hk 1).symm
  simp only [toNat_flipSign, BitVec.toNat_or, BitVec.toNat_ofNat, Nat.mod_eq_of_lt (show k < 2 ^ 64 by omega)]
  rw [show 0x8000000000000000 % 2 ^ 64 = 2 ^ 63 by norm_num, hor]
  omega

/-! ### The grids -/

theorem ulp_pos (j : ℕ) : 0 < ulp j := zpow_pos two_pos _

/-- A coarser grid's unit is a multiple of a finer one's. -/
theorem ulp_add (i k : ℕ) : ulp (i + k) = 2 ^ k * ulp i := by
  rw [ulp, ulp, ← zpow_natCast, ← zpow_add₀ two_ne_zero]
  congr 1
  push_cast
  ring

/-- The next coarser unit is already twice as large. -/
theorem two_mul_ulp_le {i j : ℕ} (h : i < j) : 2 * ulp i ≤ ulp j := by
  obtain ⟨k, rfl⟩ := Nat.exists_eq_add_of_lt h
  rw [add_assoc, ulp_add]
  exact mul_le_mul_of_nonneg_right (le_self_pow₀ one_le_two k.succ_ne_zero) (ulp_pos i).le

/-- A finite pattern is its significand in units of its scale. -/
theorem valueQ_eq (d : Double) : valueQ d = (if signBit d then -1 else 1) * (significand d * ulp (scale d)) := by
  by_cases h : expBits d = 0
  · simp [valueQ, significand, scale, ulp, h]
  · have hs : ((scale d : ℕ) : ℤ) - 1074 = (expBits d : ℤ) - 1075 := by
      rw [scale]
      omega
    simp only [valueQ, significand, ulp, hs, if_neg h, Nat.add_comm (2 ^ 52)]

theorem significand_lt (d : Double) : significand d < 2 ^ 53 := by
  rw [significand, fracBits_eq]
  split <;> omega

/-- Every pattern's value is a whole number of units at its scale. -/
theorem exists_valueQ_eq (d : Double) : ∃ (s : ℤ) (i : ℕ), |s| < 2 ^ 53 ∧ valueQ d = s * ulp i := by
  have hlt : (significand d : ℤ) < 2 ^ 53 := by exact_mod_cast significand_lt d
  refine ⟨(if signBit d then -1 else 1) * significand d, scale d, ?_, ?_⟩
  · split <;> simpa using hlt
  · rw [valueQ_eq]
    push_cast
    ring

/-! ### Rounding at the grid of the binade -/

/-- At scale `j`, the smallest one or the one of `y`'s own binade, `m` is the nearest number of units to `y`, ties to
even. -/
structure RoundedAt (y : ℚ) (j m : ℕ) : Prop where
  lt : y < 2 ^ 53 * ulp j
  le : 0 < j → 2 ^ 52 * ulp j ≤ y
  near : |m * ulp j - y| ≤ ulp j / 2
  even : |m * ulp j - y| = ulp j / 2 → m % 2 = 0

namespace RoundedAt

variable {y : ℚ} {j m : ℕ}

/-- Among the points of its own grid, the rounding is nearest, and even where another one is as near. -/
theorem nearest_same (h : RoundedAt y j m) (t : ℤ) :
    |m * ulp j - y| ≤ |t * ulp j - y|
      ∧ (|m * ulp j - y| = |t * ulp j - y| → (t : ℚ) * ulp j ≠ m * ulp j → m % 2 = 0) := by
  by_cases htm : t = m
  · subst htm
    simp
  · have hone : (1 : ℚ) ≤ |(t : ℚ) - m| := by exact_mod_cast Int.one_le_abs (sub_ne_zero.2 htm)
    have hapart : ulp j ≤ |t * ulp j - m * ulp j| := by
      rw [← sub_mul, abs_mul, abs_of_pos (ulp_pos j)]
      exact le_mul_of_one_le_left (ulp_pos j).le hone
    have htri : |t * ulp j - m * ulp j| ≤ |t * ulp j - y| + |m * ulp j - y| := by
      rw [abs_sub_comm ((m : ℚ) * ulp j) y]
      exact abs_sub_le _ _ _
    have hnear := h.near
    refine ⟨by linarith, fun heq _ => h.even (by linarith)⟩

/-- A value of a finer grid lies below the binade, so the rounding is strictly nearer. -/
theorem nearest_finer (h : RoundedAt y j m) {s : ℤ} {i : ℕ} (hs : |s| < 2 ^ 53) (hij : i < j) :
    |m * ulp j - y| < |s * ulp i - y| := by
  have hle := h.le (by omega)
  have hsq : (s : ℚ) < 2 ^ 53 := by exact_mod_cast (abs_lt.1 hs).2
  have hbelow : s * ulp i < 2 ^ 52 * ulp j := by
    linarith [mul_lt_mul_of_pos_right hsq (ulp_pos i), two_mul_ulp_le hij]
  calc |m * ulp j - y|
      ≤ |((2 ^ 52 : ℤ) : ℚ) * ulp j - y| := (h.nearest_same (2 ^ 52)).1
    _ = y - 2 ^ 52 * ulp j := by
      rw [Int.cast_pow, Int.cast_ofNat, abs_sub_comm, abs_of_nonneg (sub_nonneg.2 hle)]
    _ < y - s * ulp i := sub_lt_sub_left hbelow y
    _ ≤ |s * ulp i - y| := by
      rw [abs_sub_comm]
      exact le_abs_self _

/-- R9: among all finite values, the rounding is nearest, and even where another one is as near. -/
theorem nearest (h : RoundedAt y j m) (e : Double) :
    |m * ulp j - y| ≤ |valueQ e - y|
      ∧ (|m * ulp j - y| = |valueQ e - y| → valueQ e ≠ m * ulp j → m % 2 = 0) := by
  obtain ⟨s, i, hs, he⟩ := exists_valueQ_eq e
  rw [he]
  rcases lt_or_ge i j with hij | hij
  · have hlt := h.nearest_finer hs hij
    exact ⟨hlt.le, fun heq => absurd heq hlt.ne⟩
  · obtain ⟨k, rfl⟩ := Nat.exists_eq_add_of_le hij
    have hgrid : (s : ℚ) * ulp (j + k) = ((s * 2 ^ k : ℤ) : ℚ) * ulp j := by
      rw [ulp_add]
      push_cast
      ring
    rw [hgrid]
    exact h.nearest_same _

/-- What lies more than half a unit below `t` units is rounded below `t`. -/
theorem lt_of_lt (h : RoundedAt y j m) {t : ℕ} (hy : y < (t - 1 / 2) * ulp j) : m < t := by
  have hu := ulp_pos j
  have hm : (m : ℚ) * ulp j < t * ulp j := by linarith [(abs_le.1 h.near).2]
  exact_mod_cast lt_of_mul_lt_mul_right hm hu.le

/-- What lies at most half a unit below an even `t` is rounded to `t` or above: at exactly half, the tie goes to even. -/
theorem le_of_le (h : RoundedAt y j m) {t : ℕ} (ht : t % 2 = 0) (hy : (t - 1 / 2) * ulp j ≤ y) : t ≤ m := by
  by_contra hlt
  have hu := ulp_pos j
  have hm : (m : ℚ) + 1 ≤ t := by exact_mod_cast not_le.1 hlt
  have hmu := mul_le_mul_of_nonneg_right hm hu.le
  have hlow := (abs_le.1 h.near).1
  have htie : |m * ulp j - y| = ulp j / 2 := by
    rw [abs_of_nonpos] <;> linarith
  have hsucc : (m : ℚ) * ulp j + ulp j = t * ulp j := by linarith
  have hnext : (m : ℚ) + 1 = t := mul_right_cancel₀ hu.ne' (by linarith)
  have : m + 1 = t := by exact_mod_cast hnext
  have := h.even htie
  omega

/-- A rounding carries at most once, to `2 ^ 53`. -/
theorem significand_le (h : RoundedAt y j m) : m ≤ 2 ^ 53 := by
  have hu := ulp_pos j
  have := h.lt_of_lt (t := 2 ^ 53 + 1) (by push_cast; linarith [h.lt])
  omega

/-- Above the smallest scale a rounding keeps its hidden bit. -/
theorem le_significand (h : RoundedAt y j m) (hj : 0 < j) : 2 ^ 52 ≤ m := by
  have hu := ulp_pos j
  exact h.le_of_le (by norm_num) (by push_cast; linarith [h.le hj])

/-- The carry past the largest finite pattern happens exactly from half a unit below 2^1024 on. -/
theorem overflow_iff (h : RoundedAt y j m) :
    2047 * 2 ^ 52 ≤ j * 2 ^ 52 + m ↔ (2 ^ 53 - 1 / 2) * ulp 2045 ≤ y := by
  have hu := ulp_pos 2045
  rcases lt_trichotomy j 2045 with hj | rfl | hj
  · have hm := h.significand_le
    have hy : y < (2 ^ 53 - 1 / 2) * ulp 2045 := by linarith [h.lt, two_mul_ulp_le hj]
    exact ⟨by omega, fun hge => absurd hge hy.not_ge⟩
  · constructor
    · intro hk
      by_contra hy
      have := h.lt_of_lt (t := 2 ^ 53) (by push_cast; exact not_le.1 hy)
      omega
    · intro hy
      have := h.le_of_le (t := 2 ^ 53) (by norm_num) (by push_cast; exact hy)
      omega
  · have hm := h.le_significand (by omega)
    have hy : (2 ^ 53 - 1 / 2) * ulp 2045 ≤ y := by linarith [h.le (by omega), two_mul_ulp_le hj]
    exact ⟨fun _ => hy, by omega⟩

/-! ### The pattern of a rounding -/

theorem signBit_pattern (hk : j * 2 ^ 52 + m < 2047 * 2 ^ 52) :
    signBit (BitVec.ofNat 64 (j * 2 ^ 52 + m)) = false := by
  rw [signBit_eq, BitVec.toNat_ofNat, decide_eq_false_iff_not]
  omega

theorem expBits_pattern (hk : j * 2 ^ 52 + m < 2047 * 2 ^ 52) :
    expBits (BitVec.ofNat 64 (j * 2 ^ 52 + m)) = j + m / 2 ^ 52 := by
  rw [expBits_eq, BitVec.toNat_ofNat]
  omega

theorem fracBits_pattern : fracBits (BitVec.ofNat 64 (j * 2 ^ 52 + m)) = m % 2 ^ 52 := by
  rw [fracBits_eq, BitVec.toNat_ofNat]
  omega

/-- The pattern of a finite rounding denotes it: a subnormal, a significand with its hidden bit, or one that has
carried into the exponent. -/
theorem valueQ_pattern (h : RoundedAt y j m) (hk : j * 2 ^ 52 + m < 2047 * 2 ^ 52) :
    valueQ (BitVec.ofNat 64 (j * 2 ^ 52 + m)) = m * ulp j := by
  have hm := h.significand_le
  simp only [valueQ_eq, signBit_pattern hk, significand, scale, expBits_pattern hk, fracBits_pattern,
    Bool.false_eq_true, if_false, one_mul]
  obtain hsub | ⟨hlo, hhi⟩ | rfl : m < 2 ^ 52 ∨ 2 ^ 52 ≤ m ∧ m < 2 ^ 53 ∨ m = 2 ^ 53 := by omega
  · have hj : j = 0 := by
      by_contra hj
      have := h.le_significand (by omega)
      omega
    rw [Nat.div_eq_of_lt hsub, Nat.mod_eq_of_lt hsub, hj]
    rfl
  · have hdiv : m / 2 ^ 52 = 1 := by omega
    have hmod : m % 2 ^ 52 + 2 ^ 52 = m := by omega
    rw [hdiv, if_neg j.succ_ne_zero, hmod, Nat.add_sub_cancel]
  · have hdiv : 2 ^ 53 / 2 ^ 52 = 1 + 1 := by norm_num
    rw [hdiv, ← add_assoc, if_neg (j + 1).succ_ne_zero, Nat.add_sub_cancel, ulp_add]
    norm_num
    ring

/-- R9: the pattern of a finite rounding is the nearest finite value, ties to even. -/
theorem isNearest_pattern (h : RoundedAt y j m) (hy : 0 < y) (hk : j * 2 ^ 52 + m < 2047 * 2 ^ 52) :
    isNearest y (BitVec.ofNat 64 (j * 2 ^ 52 + m)) := by
  refine ⟨?_, ?_, ?_, fun h0 => absurd h0 hy.ne'⟩
  · have hm := h.significand_le
    rw [isFinite, expBits_pattern hk]
    omega
  · intro e _
    rw [h.valueQ_pattern hk]
    exact (h.nearest e).1
  · intro e _
    rw [h.valueQ_pattern hk, fracBits_pattern, Nat.mod_mod_of_dvd m (by norm_num)]
    exact (h.nearest e).2

end RoundedAt

/-! ### The integer algorithms -/

/-- The two natural exponents the model scales by stand for one integer exponent. -/
theorem two_pow_toNat (a : ℤ) : (2 : ℚ) ^ a.toNat = 2 ^ a * 2 ^ (-a).toNat := by
  rw [← zpow_natCast, ← zpow_natCast, ← zpow_add₀ two_ne_zero]
  congr 1
  omega

/-- `rneDiv n d` is within half of `n / d`, and even at a distance of exactly half, stated times `2 * d`. -/
theorem rneDiv_bounds (n : ℕ) {d : ℕ} (hd : 0 < d) :
    2 * (rneDiv n d * d) ≤ 2 * n + d ∧ 2 * n ≤ 2 * (rneDiv n d * d) + d
      ∧ (2 * (rneDiv n d * d) = 2 * n + d ∨ 2 * n = 2 * (rneDiv n d * d) + d → rneDiv n d % 2 = 0) := by
  have hn := Nat.div_add_mod' n d
  have hr := Nat.mod_lt n hd
  simp only [rneDiv]
  generalize n / d = q at *
  generalize n % d = r at *
  split
  · omega
  split
  · rw [add_one_mul]
    omega
  · rcases Nat.mod_two_eq_zero_or_one q with hq | hq <;> rw [hq]
    · simp only [add_zero]
      omega
    · rw [add_one_mul]
      omega

/-- The test in `floorLog2` compares `n / d` with the power of two between the two lengths. -/
theorem floorLog2_cases (n d : ℕ) :
    (2 : ℚ) ^ ((n.log2 : ℤ) - d.log2) * d ≤ n ∧ floorLog2 n d = n.log2 - d.log2
      ∨ (n : ℚ) < 2 ^ ((n.log2 : ℤ) - d.log2) * d ∧ floorLog2 n d = n.log2 - d.log2 - 1 := by
  have htest : d * 2 ^ (n.log2 - d.log2) ≤ n * 2 ^ (d.log2 - n.log2)
      ↔ (2 : ℚ) ^ ((n.log2 : ℤ) - d.log2) * d ≤ n := by
    have hscale := two_pow_toNat ((n.log2 : ℤ) - d.log2)
    rw [neg_sub, Int.toNat_sub, Int.toNat_sub] at hscale
    have hpow : (0 : ℚ) < 2 ^ (d.log2 - n.log2) := by positivity
    rw [← Nat.cast_le (α := ℚ)]
    push_cast
    rw [hscale, ← mul_assoc, mul_comm (d : ℚ), mul_le_mul_iff_left₀ hpow]
  by_cases hle : d * 2 ^ (n.log2 - d.log2) ≤ n * 2 ^ (d.log2 - n.log2)
  · exact .inl ⟨htest.1 hle, if_pos hle⟩
  · exact .inr ⟨not_le.1 (mt htest.2 hle), if_neg hle⟩

/-- `floorLog2` is the exponent of the binade of `n / d`. -/
theorem floorLog2_bounds {n d : ℕ} (hn : 0 < n) (hd : 0 < d) :
    (2 : ℚ) ^ floorLog2 n d ≤ n / d ∧ (n : ℚ) / d < 2 ^ (floorLog2 n d + 1) := by
  have hd' : (0 : ℚ) < d := by exact_mod_cast hd
  rw [le_div_iff₀ hd', div_lt_iff₀ hd']
  have hnlo : (2 : ℚ) ^ (n.log2 : ℤ) ≤ n := by exact_mod_cast Nat.log2_self_le hn.ne'
  have hnhi : (n : ℚ) < 2 ^ ((n.log2 : ℤ) + 1) := by exact_mod_cast Nat.lt_log2_self
  have hdlo : (2 : ℚ) ^ (d.log2 : ℤ) ≤ d := by exact_mod_cast Nat.log2_self_le hd.ne'
  have hdhi : (d : ℚ) < 2 ^ ((d.log2 : ℤ) + 1) := by exact_mod_cast Nat.lt_log2_self
  obtain ⟨hle, hfloor⟩ | ⟨hlt, hfloor⟩ := floorLog2_cases n d <;> rw [hfloor]
  · refine ⟨hle, ?_⟩
    calc (n : ℚ) < 2 ^ ((n.log2 : ℤ) + 1) := hnhi
      _ = 2 ^ ((n.log2 : ℤ) - d.log2 + 1) * 2 ^ (d.log2 : ℤ) := by
        rw [← zpow_add₀ two_ne_zero]
        ring_nf
      _ ≤ 2 ^ ((n.log2 : ℤ) - d.log2 + 1) * d := mul_le_mul_of_nonneg_left hdlo (by positivity)
  · refine ⟨?_, by simpa using hlt⟩
    calc (2 : ℚ) ^ ((n.log2 : ℤ) - d.log2 - 1) * d ≤ 2 ^ ((n.log2 : ℤ) - d.log2 - 1) * 2 ^ ((d.log2 : ℤ) + 1) :=
          mul_le_mul_of_nonneg_left hdhi.le (by positivity)
      _ = 2 ^ (n.log2 : ℤ) := by
        rw [← zpow_add₀ two_ne_zero]
        ring_nf
      _ ≤ n := hnlo

/-- `rneDiv` rounds `y` at a scale where `y` is `n / d` units. -/
theorem roundedAt_rneDiv {y : ℚ} {j n d : ℕ} (hd : 0 < d) (hy : y * d = n * ulp j) (hlt : y < 2 ^ 53 * ulp j)
    (hle : 0 < j → 2 ^ 52 * ulp j ≤ y) : RoundedAt y j (rneDiv n d) := by
  obtain ⟨habove, hbelow, htie⟩ := rneDiv_bounds n hd
  generalize rneDiv n d = m at *
  have hu := ulp_pos j
  have hd' : (0 : ℚ) < d := by exact_mod_cast hd
  obtain ⟨z, hz⟩ : ∃ z : ℤ, z = 2 * (m * d) - 2 * n := ⟨_, rfl⟩
  have hunits : m * ulp j - y = z / d * (ulp j / 2) := by
    rw [hz]
    field_simp
    push_cast
    linear_combination (-2) * hy
  have habs : |m * ulp j - y| = |(z : ℚ)| / d * (ulp j / 2) := by
    rw [hunits, abs_mul, abs_div, abs_of_pos hd', abs_of_pos (half_pos hu)]
  refine ⟨hlt, hle, ?_, fun heq => htie ?_⟩
  · have hz' : |z| ≤ d := abs_le.2 ⟨by omega, by omega⟩
    rw [habs]
    exact mul_le_of_le_one_left (half_pos hu).le ((div_le_one hd').2 (by exact_mod_cast hz'))
  · rw [habs, mul_eq_right₀ (half_pos hu).ne', div_eq_one_iff_eq hd'.ne'] at heq
    have hz' : |z| = d := by exact_mod_cast heq
    have := eq_or_eq_neg_of_abs_eq hz'
    omega

/-- `roundMagnitude` rounds at the grid of the binade, and cuts the pattern off at infinity. -/
theorem roundMagnitude_spec {n d : ℕ} (hn : 0 < n) (hd : 0 < d) :
    ∃ j m, RoundedAt (n / d) j m ∧ roundMagnitude n d = min (j * 2 ^ 52 + m) (2047 * 2 ^ 52) := by
  obtain ⟨hlo, hhi⟩ := floorLog2_bounds hn hd
  set e := max (floorLog2 n d) (-1022) with he
  have hj : (((e + 1022).toNat : ℕ) : ℤ) - 1074 = e - 52 := by omega
  have hulp : ∀ k : ℕ, (2 : ℚ) ^ k * ulp (e + 1022).toNat = 2 ^ (e - 52 + k) := by
    intro k
    rw [ulp, hj, zpow_add₀ two_ne_zero, zpow_natCast, mul_comm]
  refine ⟨(e + 1022).toNat, _, roundedAt_rneDiv ?_ ?_ ?_ ?_, rfl⟩
  · positivity
  · have hd' : (d : ℚ) ≠ 0 := by exact_mod_cast hd.ne'
    push_cast
    rw [← he, ulp, hj, two_pow_toNat (e - 52)]
    field_simp
  · rw [hulp]
    exact hhi.trans_le (zpow_le_zpow_right₀ one_le_two (by push_cast; omega))
  · intro hpos
    rw [hulp]
    exact le_trans (zpow_le_zpow_right₀ one_le_two (by push_cast; omega)) hlo

/-! ### The sign -/

theorem isNearest_zero : isNearest 0 0#64 := by
  have hv : valueQ 0#64 = 0 := by simp [valueQ, expBits, fracBits]
  refine ⟨by simp [expBits], ?_, ?_, fun _ => rfl⟩
  · intro e _
    rw [hv, sub_zero, abs_zero]
    exact abs_nonneg _
  · intro _ _ _ _
    simp [fracBits]

/-- Rounding to nearest even is symmetric in the sign. -/
theorem isNearest_flipSign {x : ℚ} {d : Double} (hx : x ≠ 0) (h : isNearest x d) : isNearest (-x) (flipSign d) := by
  obtain ⟨hfin, hnear, htie, -⟩ := h
  have hmirror : ∀ e, |valueQ (flipSign e) - x| = |valueQ e - -x| := by
    intro e
    rw [valueQ_flipSign, ← abs_neg]
    ring_nf
  have hmirror' : |valueQ (flipSign d) - -x| = |valueQ d - x| := by
    rw [valueQ_flipSign, ← abs_neg]
    ring_nf
  refine ⟨by simpa using hfin, fun e he => ?_, fun e he heq hne => ?_, fun h0 => absurd (neg_eq_zero.1 h0) hx⟩
  · rw [hmirror', ← hmirror]
    exact hnear _ (by simpa using he)
  · rw [hmirror', ← hmirror] at heq
    rw [fracBits_flipSign]
    refine htie _ (by simpa using he) heq fun hv => hne ?_
    rw [valueQ_flipSign, ← hv, valueQ_flipSign, neg_neg]

/-! ### rne64 -/

/-- R9's rounding of a positive rational. -/
theorem rne64_of_pos {x : Frac} (hden : 0 < x.den) (hnum : 0 < x.num) :
    (x.toQ < (2 ^ 53 - 1 / 2) * ulp 2045 → isNearest x.toQ (rne64 x))
      ∧ ((2 ^ 53 - 1 / 2) * ulp 2045 ≤ x.toQ → rne64 x = posInf) := by
  have hnat : 0 < x.num.natAbs := by omega
  obtain ⟨j, m, h, hk⟩ := roundMagnitude_spec hnat hden
  have hq : ((x.num.natAbs : ℕ) : ℚ) / x.den = x.toQ := by
    rw [Frac.toQ, Nat.cast_natAbs, abs_of_pos hnum]
  have hr : rne64 x = BitVec.ofNat 64 (min (j * 2 ^ 52 + m) (2047 * 2 ^ 52)) := by
    rw [rne64, if_neg hnum.ne', if_neg hnum.not_gt, hk]
  rw [hq] at h
  constructor
  · intro hlt
    have hfin := not_le.1 (mt h.overflow_iff.1 hlt.not_ge)
    rw [hr, min_eq_left hfin.le]
    exact h.isNearest_pattern (div_pos (by exact_mod_cast hnum) (by exact_mod_cast hden)) hfin
  · intro hge
    rw [hr, min_eq_right (h.overflow_iff.2 hge)]
    rfl

theorem roundMagnitude_lt (n d : ℕ) : roundMagnitude n d < 2 ^ 63 :=
  (min_le_right _ _).trans_lt (by norm_num)

/-- A negative rational is rounded as its magnitude is, and the sign is set. -/
theorem rne64_of_neg {x : Frac} (hnum : x.num < 0) : rne64 x = flipSign (rne64 { x with num := -x.num }) := by
  rw [rne64, if_neg hnum.ne, if_pos hnum, signMask_or_ofNat (roundMagnitude_lt _ _), rne64,
    if_neg (neg_ne_zero.2 hnum.ne), if_neg (neg_pos.2 hnum).not_gt, Int.natAbs_neg]

/-- The overflow threshold is half a unit of the last finite binade below 2^1024. -/
theorem threshold_eq : (2 : ℚ) ^ 1024 - 2 ^ 970 = (2 ^ 53 - 1 / 2) * ulp 2045 := by
  have htop : (2 : ℚ) ^ 1024 = 2 ^ 54 * 2 ^ 970 := by rw [← pow_add]
  have hulp : ulp 2045 = 2 * 2 ^ 970 := by
    rw [ulp, show ((2045 : ℕ) : ℤ) - 1074 = (971 : ℕ) by norm_num, zpow_natCast, pow_succ']
  rw [htop, hulp]
  generalize (2 : ℚ) ^ 970 = t
  ring

/-- Settles O54: a positive rational by `rne64_of_pos`, a negative one by its mirror image. -/
theorem roundingIsNearestEven : Obligations.RoundingIsNearestEven := by
  intro x hden
  have hpos : 0 < (2 ^ 53 - 1 / 2) * ulp 2045 := mul_pos (by norm_num) (ulp_pos _)
  have hden' : (0 : ℚ) < x.den := by exact_mod_cast hden
  rw [threshold_eq]
  rcases lt_trichotomy x.num 0 with hnum | hnum | hnum
  · have hq : Frac.toQ { x with num := -x.num } = -x.toQ := by simp [Frac.toQ, neg_div]
    have hneg : x.toQ < 0 := div_neg_of_neg_of_pos (by exact_mod_cast hnum) hden'
    obtain ⟨hnear, hinf⟩ := rne64_of_pos (x := { x with num := -x.num }) hden (neg_pos.2 hnum)
    rw [hq] at hnear hinf
    rw [rne64_of_neg hnum, abs_of_neg hneg]
    refine ⟨fun hlt => ?_, fun hge => by linarith, fun hle => ?_⟩
    · simpa using isNearest_flipSign (neg_ne_zero.2 hneg.ne) (hnear hlt)
    · rw [hinf (by linarith)]
      rfl
  · have hq : x.toQ = 0 := by simp [Frac.toQ, hnum]
    have hr : rne64 x = 0#64 := if_pos hnum
    rw [hq, hr]
    exact ⟨fun _ => isNearest_zero, fun hge => absurd hge hpos.not_ge, fun hle => by linarith⟩
  · have hq : 0 < x.toQ := div_pos (by exact_mod_cast hnum) hden'
    obtain ⟨hnear, hinf⟩ := rne64_of_pos hden hnum
    rw [abs_of_pos hq]
    exact ⟨hnear, hinf, fun hle => by linarith⟩

end Sys2Proof.Machine
end

section
/-! SUPPORT. What a command can do to the state, said once (R34): the update a command makes is fixed by PKTBUF, IARG
and FARG, and applying it touches nothing but the result registers, VRES, VVALID, RANGE and bytes of the 40. -/

namespace Sys2Proof.Machine

/-- What the completion of a command changes: the bytes it stores, each result register and field it sets (`none`: left
alone), and whether it raises RANGE. -/
structure Update where
  off : Nat := 0
  bytes : List Byte := []
  pcrc : Option Word := none
  ires : Option Word := none
  fres : Option Double := none
  vres : Option VRes := none
  vvalid : Option Bool := none
  raised : Bool := false

/-- The state with an update made. -/
def Update.apply (e : Update) (s : State) : State :=
  { s with
    pkt := s.pkt.puts e.off e.bytes
    pcrc := e.pcrc.getD s.pcrc
    ires := e.ires.getD s.ires
    fres := e.fres.getD s.fres
    status := { s.status with
      vres := e.vres.getD s.status.vres
      vvalid := e.vvalid.getD s.status.vvalid
      range := e.raised || s.status.range } }

/-- The bytes an update stores lie in the packet buffer (R16). -/
def Update.fits (e : Update) : Prop := e.off + e.bytes.length ≤ Config.pktLen

@[simp] theorem Update.fits_iff (e : Update) : e.fits ↔ e.off + e.bytes.length ≤ 40 := Iff.rfl

/-- Two states agree on what a command reads (R34). -/
structure SameInputs (s s' : State) : Prop where
  pkt : s'.pkt = s.pkt
  iarg : s'.iarg = s.iarg
  farg : s'.farg = s.farg

theorem SameInputs.refl (s : State) : SameInputs s s := ⟨rfl, rfl, rfl⟩

theorem tempIn_congr {s s' : State} (h : SameInputs s s') (a : FSel) : tempIn s' a = tempIn s a := by
  cases a <;> simp only [tempIn, h.pkt, h.iarg]

theorem qIn_congr {s s' : State} (h : SameInputs s s') (a : FSel) : qIn s' a = qIn s a := by
  cases a <;> simp only [qIn, h.pkt, h.iarg]

/-- The six fields of `qoff` lie below the crc32 field (R44, R62). -/
theorem qoff_add_four_le {a : FSel} {off : Nat} (h : qoff a = some off) : off + 4 ≤ Config.crcCover := by
  cases a <;> cases h <;> decide

/-- The stores of ENCT with IRES and RANGE, as one update (R122). -/
theorem enct_update (a : FSel) (r : Half) (raised : Bool) :
    ∃ e : Update, e.fits ∧
      ∀ s : State, raiseRangeIf raised (putTemp a r { s with ires := r.setWidth 32 }) = e.apply s := by
  by_cases ha : a = .temp
  · refine ⟨{ off := 10, bytes := leBytes 2 r, ires := some (r.setWidth 32), vvalid := some false, raised }, ?_,
      fun s => ?_⟩
    · simp
    · rw [raiseRangeIf_eq, putTemp_eq, if_pos ha, Bool.or_comm]
      rfl
  · refine ⟨{ ires := some (r.setWidth 32), raised }, by simp, fun s => ?_⟩
    rw [raiseRangeIf_eq, putTemp_eq, if_neg ha, Bool.or_comm]
    rfl

/-- The stores of ENCQ with IRES and RANGE, as one update (R124). -/
theorem encq_update (a : FSel) (r : Word) (raised : Bool) :
    ∃ e : Update, e.fits ∧ ∀ s : State, raiseRangeIf raised (putQ a r { s with ires := r }) = e.apply s := by
  cases ha : qoff a with
  | some off =>
    refine ⟨{ off, bytes := leBytes 4 r, ires := some r, vvalid := some false, raised }, ?_, fun s => ?_⟩
    · have hle := qoff_add_four_le ha
      simp only [Update.fits_iff, leBytes_length, Config.crcCover] at hle ⊢
      omega
    · rw [raiseRangeIf_eq, putQ_field ha, Bool.or_comm]
      rfl
  | none =>
    refine ⟨{ ires := some r, raised }, by simp, fun s => ?_⟩
    rw [raiseRangeIf_eq, putQ, ha, Bool.or_comm]
    rfl

/-- A command that completes makes an update that fits the buffer, and it makes the same one, and completes, from every
state with the same inputs (R34, R84). -/
theorem exec_applies_update {i : Instr} {s t : State} (h : exec i s = .next t) :
    ∃ e : Update, e.fits ∧ ∀ s', SameInputs s s' → exec i s' = .next (e.apply s') := by
  cases i with
  | nop => exact ⟨{}, by simp, fun s' _ => rfl⟩
  | validate =>
    obtain ⟨⟨r, c⟩, hread, -⟩ := withRead_next.1 h
    refine ⟨{ pcrc := c, vres := some r, vvalid := some true }, by simp, fun s' hs => ?_⟩
    have hread' : s'.pkt.classify = .ok (r, c) := by rw [hs.pkt, hread]
    rw [exec, execValidate, hread']
    rfl
  | crcpkt =>
    obtain ⟨c, hread, -⟩ := withRead_next.1 h
    refine ⟨{ pcrc := some c }, by simp, fun s' hs => ?_⟩
    have hread' : s'.pkt.packetCrc = .ok c := by rw [hs.pkt, hread]
    rw [exec, execCrcpkt, hread']
    rfl
  | sealPkt =>
    obtain ⟨c, hread, -⟩ := withRead_next.1 h
    refine ⟨{ off := 36, bytes := leBytes 4 c, pcrc := some c, vvalid := some false }, ?_, fun s' hs => ?_⟩
    · simp
    · have hread' : s'.pkt.packetCrc = .ok c := by rw [hs.pkt, hread]
      rw [exec, execSeal, hread']
      rfl
  | sethdr =>
    exact ⟨{ off := 0, bytes := leBytes 2 Config.magic, vvalid := some false }, by simp, fun s' _ => rfl⟩
  | setseq imm8 =>
    refine ⟨{ off := 2, bytes := [imm8, ~~~imm8], vvalid := some false }, ?_, fun s' _ => rfl⟩
    simp
  | cvtt a =>
    rw [exec, execCvtt] at h
    split at h
    · rename_i ha
      obtain ⟨v, hread, -⟩ := withRead_next.1 h
      refine ⟨{ fres := some (celsius v) }, by simp, fun s' hs => ?_⟩
      rw [exec, execCvtt, if_pos ha, tempIn_congr hs, hread]
      rfl
    · cases h
  | cvtq a =>
    rw [exec, execCvtq] at h
    split at h
    · rename_i ha
      obtain ⟨v, hread, -⟩ := withRead_next.1 h
      refine ⟨{ fres := some (q16 (s32 v)) }, by simp, fun s' hs => ?_⟩
      rw [exec, execCvtq, if_pos ha, qIn_congr hs, hread]
      rfl
    · cases h
  | enct a =>
    rw [exec, execEnct] at h
    split at h
    · rename_i ha
      obtain ⟨e, hfits, he⟩ := enct_update a (encTemp s.farg).1 (encTemp s.farg).2
      refine ⟨e, hfits, fun s' hs => ?_⟩
      have henc : encTemp s'.farg = encTemp s.farg := by rw [hs.farg]
      rw [exec, execEnct, if_pos ha, henc]
      exact congrArg Host.Outcome.next (he s')
    · cases h
  | encq a =>
    rw [exec, execEncq] at h
    split at h
    · rename_i ha
      obtain ⟨e, hfits, he⟩ := encq_update a (encQ s.farg).1 (encQ s.farg).2
      refine ⟨e, hfits, fun s' hs => ?_⟩
      have henc : encQ s'.farg = encQ s.farg := by rw [hs.farg]
      rw [exec, execEncq, if_pos ha, henc]
      exact congrArg Host.Outcome.next (he s')
    · cases h

/-- A command that completes leaves its own state with a fitting update made. -/
theorem exec_next {i : Instr} {s t : State} (h : exec i s = .next t) : ∃ e : Update, e.fits ∧ t = e.apply s := by
  obtain ⟨e, hfits, he⟩ := exec_applies_update h
  have heq := (he s (.refl s)).symm.trans h
  cases heq
  exact ⟨e, hfits, rfl⟩

/-- A fitting update keeps the canonical form (R16). -/
theorem Update.apply_wf {e : Update} {s : State} (hs : s.pkt.wf) (he : e.fits) : (e.apply s).pkt.wf :=
  Memory.puts_wf hs he

/-- An update clears no error flag. -/
theorem Update.apply_flag {s : State} {f : ErrFlag} (e : Update) (h : s.status.flag f = true) :
    (e.apply s).status.flag f = true := by
  cases f with
  | errIll => exact h
  | errBusy => exact h
  | errAcc => exact h
  | range =>
    have hr : s.status.range = true := h
    simp [Update.apply, Status.flag, hr]

/-- A register that an update sets holds the same value in both states; one it does not set is left alone in both. -/
theorem getD_eq_or {α : Type} (o : Option α) (x y : α) : o.getD x = o.getD y ∨ (o.getD x = x ∧ o.getD y = y) := by
  cases o with
  | none => exact .inr ⟨rfl, rfl⟩
  | some v => exact .inl rfl

/-- Settles O24: both completions make one and the same update. -/
theorem commandsAreStateless : Obligations.CommandsAreStateless := by
  intro i s s' t hpkt hiarg hfarg h
  obtain ⟨e, -, he⟩ := exec_applies_update h
  have ht := (he s (.refl s)).symm.trans h
  cases ht
  refine ⟨e.apply s', he s' ⟨hpkt, hiarg, hfarg⟩, ?_, getD_eq_or .., getD_eq_or .., getD_eq_or .., getD_eq_or ..,
    getD_eq_or .., e.raised, Bool.or_comm .., Bool.or_comm ..⟩
  simp only [Update.apply, hpkt]

end Sys2Proof.Machine
end

section
/-! SUPPORT. What a step does to PKTBUF, and where it faults (R16, R17): the host and the commands store inside the 40
bytes only, and every read that can fault is of a region of them. -/

namespace Sys2Proof.Machine

/-- Every host access leaves PKTBUF alone or stores bytes inside the 40 (R72, R73). -/
theorem hostAccess_pkt {off : Nat} {op : BusOp} {s t : State} (h : hostAccess off op s = .next t) :
    t.pkt = s.pkt ∨ ∃ bs : List Byte, off + bs.length ≤ Config.pktLen ∧ t.pkt = s.pkt.puts off bs := by
  cases op with
  | read n =>
    obtain ⟨-, -, v, -, rfl⟩ | ⟨-, -, rfl⟩ | ⟨-, rfl⟩ := hostRead_next.1 h <;> exact .inl rfl
  | write n v =>
    rw [hostAccess, hostWrite_next] at h
    cases h
    split
    · rename_i hacc
      obtain ⟨-, -, hw⟩ | ⟨hlen, -, hw⟩ | ⟨-, -, -, -, hw⟩ | ⟨-, -, -, -, hw⟩ | ⟨-, -, hw⟩ | ⟨-, -, hw⟩ | ⟨-, -, hw⟩
        | ⟨-, -, hw⟩ | ⟨-, -, -, hw⟩ | ⟨-, -, -, hw⟩ | ⟨-, -, -, hw⟩ := permittedWrite_cases v s hacc
      case inr.inl =>
        rw [hw]
        exact .inr ⟨leBytes n.bytes v, by simpa [Config.pktLen] using hlen, rfl⟩
      all_goals
        rw [hw]
        exact .inl rfl
    · exact .inl rfl

/-- Settles O10, over the agents of `step_cases`: what a command or the host stores fits the buffer. -/
theorem stepKeepsPacketCanonical : Obligations.StepKeepsPacketCanonical := by
  intro s t hwf h
  obtain ⟨-, -, rfl⟩ | ⟨rest, i, u, -, -, -, hexec, rfl⟩ | ⟨rest, -, -, rfl⟩ | ⟨_, _, rest, -, -, rfl⟩
    | ⟨off, op, rest, -, hhost⟩ | ⟨rest, -, rfl⟩ := step_cases h
  · exact hwf
  · obtain ⟨e, hfits, rfl⟩ := exec_next hexec
    exact Update.apply_wf (s := takeTurn rest s) hwf hfits
  · exact hwf
  · exact hwf
  · obtain hpkt | ⟨bs, hlen, hpkt⟩ := hostAccess_pkt hhost
    · rwa [hpkt]
    · rw [hpkt]
      exact Memory.puts_wf hwf hlen
  · exact State.reset_pkt_wf

/-- A fault that names an unwritten byte of the packet buffer (R17, R133). -/
def namesUnwritten (m : Memory) (f : Fault) : Prop :=
  ∃ off < Config.pktLen, f = .unwrittenRead off ∧ m.byte? off = none

/-- A region read inside the buffer faults on one of its unwritten bytes. -/
theorem readBytes_namesUnwritten {m : Memory} {off n : Nat} {f : Fault} (hlen : off + n ≤ Config.pktLen)
    (h : m.readBytes off n = .error f) : namesUnwritten m f := by
  obtain ⟨k, hk, hnone, -, rfl⟩ := Memory.readBytes_error.1 h
  exact ⟨off + k, by omega, rfl, hnone⟩

theorem readByte_namesUnwritten {m : Memory} {off : Nat} {f : Fault} (hoff : off < Config.pktLen)
    (h : m.readByte off = .error f) : namesUnwritten m f := by
  obtain ⟨hnone, rfl⟩ := Memory.readByte_error.1 h
  exact ⟨off, hoff, rfl, hnone⟩

theorem packetCrc_namesUnwritten {m : Memory} {f : Fault} (h : m.packetCrc = .error f) : namesUnwritten m f :=
  readBytes_namesUnwritten (by decide) (Memory.packetCrc_error.1 h)

theorem hdrOK_namesUnwritten {m : Memory} {f : Fault} (h : m.hdrOK = .error f) : namesUnwritten m f := by
  unfold Memory.hdrOK at h
  split at h
  · rename_i hread
    cases h
    exact readBytes_namesUnwritten (by decide) (Memory.le16_error.1 hread)
  · cases h

theorem seqOK_namesUnwritten {m : Memory} {f : Fault} (h : m.seqOK = .error f) : namesUnwritten m f := by
  unfold Memory.seqOK at h
  split at h
  · rename_i hread
    cases h
    exact readByte_namesUnwritten (by decide) hread
  · split at h
    · rename_i hread
      cases h
      exact readByte_namesUnwritten (by decide) hread
    · cases h

theorem crcStage_namesUnwritten {m : Memory} {f : Fault} (h : m.crcStage = .error f) : namesUnwritten m f := by
  unfold Memory.crcStage at h
  split at h
  · rename_i hread
    cases h
    exact packetCrc_namesUnwritten hread
  · split at h
    · rename_i hread
      cases h
      exact readBytes_namesUnwritten (by decide) (Memory.le32_error.1 hread)
    · cases h

/-- Where the three checks fault, one of them does (R104). -/
theorem Memory.classify_error {m : Memory} {f : Fault} (h : m.classify = .error f) :
    m.hdrOK = .error f ∨ m.seqOK = .error f ∨ m.crcStage = .error f := by
  unfold Memory.classify at h
  rcases hhdr : m.hdrOK with g | (_ | _)
  · simp_all
  · simp_all
  · rcases hseq : m.seqOK with g | (_ | _)
    · simp_all
    · simp_all
    · rcases hcrc : m.crcStage with g | ⟨w, _ | _⟩ <;> simp_all

theorem classify_namesUnwritten {m : Memory} {f : Fault} (h : m.classify = .error f) : namesUnwritten m f := by
  obtain hhdr | hseq | hcrc := Memory.classify_error h
  · exact hdrOK_namesUnwritten hhdr
  · exact seqOK_namesUnwritten hseq
  · exact crcStage_namesUnwritten hcrc

theorem tempIn_namesUnwritten {s : State} {a : FSel} {f : Fault} (h : tempIn s a = .error f) :
    namesUnwritten s.pkt f := by
  unfold tempIn at h
  split at h
  · cases h
  · exact readBytes_namesUnwritten (by decide) (Memory.le16_error.1 h)

theorem qIn_namesUnwritten {s : State} {a : FSel} {f : Fault} (h : qIn s a = .error f) : namesUnwritten s.pkt f := by
  unfold qIn at h
  split at h
  · rename_i off hoff
    have hle := qoff_add_four_le hoff
    exact readBytes_namesUnwritten (hle.trans (by decide)) (Memory.le32_error.1 h)
  · cases h

/-- A meaning behind a read that faults nowhere itself faults where the read does. -/
theorem withRead_namesUnwritten {α : Type} {m : Memory} {r : Except Fault α} {k : α → State} {f : Fault}
    (hr : r = .error f → namesUnwritten m f) (h : withRead r (fun a => .next (k a)) = .fault f) :
    namesUnwritten m f := by
  obtain herr | ⟨a, -, hk⟩ := withRead_fault.1 h
  · exact hr herr
  · cases hk

/-- A command faults only on an unwritten byte of the buffer (R84). -/
theorem exec_fault {i : Instr} {s : State} {f : Fault} (h : exec i s = .fault f) : namesUnwritten s.pkt f := by
  cases i with
  | nop => cases h
  | validate => exact withRead_namesUnwritten classify_namesUnwritten h
  | crcpkt => exact withRead_namesUnwritten packetCrc_namesUnwritten h
  | sealPkt => exact withRead_namesUnwritten packetCrc_namesUnwritten h
  | sethdr => cases h
  | setseq imm8 => cases h
  | cvtt a =>
    rw [exec, execCvtt] at h
    split at h
    · exact withRead_namesUnwritten tempIn_namesUnwritten h
    · cases h
  | cvtq a =>
    rw [exec, execCvtq] at h
    split at h
    · exact withRead_namesUnwritten qIn_namesUnwritten h
    · cases h
  | enct a =>
    rw [exec, execEnct] at h
    split at h <;> cases h
  | encq a =>
    rw [exec, execEncq] at h
    split at h <;> cases h

/-- A read of PKTBUF faults exactly where the read of its region does (R74). -/
theorem pktRead_error {off : Nat} {n : Width} {s : State} {f : Fault} :
    pktRead off n s = .error f ↔ s.pkt.readBytes off n.bytes = .error f := by
  unfold pktRead
  cases s.pkt.readBytes off n.bytes <;> simp

/-- A host access faults only on an unwritten byte of the buffer (R74). -/
theorem hostAccess_fault {off : Nat} {op : BusOp} {s : State} {f : Fault} (h : hostAccess off op s = .fault f) :
    namesUnwritten s.pkt f := by
  cases op with
  | read n =>
    rw [hostAccess, hostRead] at h
    split at h
    · split at h
      · rename_i hlen
        exact withRead_namesUnwritten
          (fun herr => readBytes_namesUnwritten hlen (pktRead_error.1 herr)) h
      · cases h
    · cases h
  | write n v =>
    rw [hostAccess, hostWrite_next] at h
    cases h

/-- If a step faults, the command of a completion step faults or a host access does (R17). -/
theorem step_fault {s : State} {f : Fault} (h : step s = .fault f) :
    (∃ rest i, exec i (takeTurn rest s) = .fault f)
      ∨ ∃ off op rest, hostAccess off op (takeTurn rest s) = .fault f := by
  unfold step agentStep at h
  split at h
  · split at h
    · obtain ⟨i, -, hexec⟩ := complete_fault.1 h
      exact .inl ⟨[], i, hexec⟩
    · cases h
  · rename_i rest _
    unfold blockTurn at h
    split at h
    · obtain ⟨i, -, hexec⟩ := complete_fault.1 h
      exact .inl ⟨rest, i, hexec⟩
    · cases h
  · rename_i addr op rest _
    unfold busAccess at h
    split at h
    · exact .inr ⟨_, op, rest, h⟩
    · cases h
  · cases h

/-- Settles O16. -/
theorem faultsAreUnwrittenReads : Obligations.FaultsAreUnwrittenReads := by
  intro s f h
  obtain ⟨rest, i, hexec⟩ | ⟨off, op, rest, hhost⟩ := step_fault h
  · exact exec_fault (s := takeTurn rest s) hexec
  · exact hostAccess_fault (s := takeTurn rest s) hhost

end Sys2Proof.Machine
end

section
/-! SUPPORT. What a step does to BUSY, DONE and the four error flags (R26, R27, R29), said once: every step is of one of
the kinds of `StatusChange`, and each rule on a flag reads its causes off the kinds that change it. -/

namespace Sys2Proof.Machine

/-- Raising an error flag sets it and leaves the other three (R132). -/
theorem Status.flag_raise (st : Status) (g f : ErrFlag) : (st.raise g).flag f = (st.flag f || decide (f = g)) := by
  cases f <;> cases g <;> simp [Status.flag]

/-- A write of STATUS clears exactly the error flags whose bits it has at 1 (R76). -/
theorem Status.flag_write (st : Status) (v : Word) (f : ErrFlag) :
    (st.write v).flag f = (st.flag f && !v.getLsbD f.bit) := by
  cases f <;> rfl

/-- BUSY and DONE stay as they are, and no error flag falls. -/
structure Status.Quiet (st st' : Status) : Prop where
  busy : st'.busy = st.busy
  done : st'.done = st.done
  flags : ∀ f, st.flag f = true → st'.flag f = true

theorem Status.Quiet.refl (st : Status) : st.Quiet st := ⟨rfl, rfl, fun _ h => h⟩

theorem Status.quiet_raise (st : Status) (g : ErrFlag) : st.Quiet (st.raise g) :=
  ⟨st.raise_busy g, st.raise_done g, fun f h => by simp [Status.flag_raise, h]⟩

theorem Status.quiet_vvalid (st : Status) (b : Bool) : st.Quiet { st with vvalid := b } :=
  ⟨rfl, rfl, fun f h => by cases f <;> exact h⟩

/-- Accepting a command touches no error flag (R81). -/
theorem acceptCommand_flag (w : Word) (s : State) (f : ErrFlag) :
    (acceptCommand w s).status.flag f = s.status.flag f := by
  cases f <;> rfl

/-- Rejecting a command clears no error flag (R81). -/
theorem rejectCommand_flag {s : State} {f : ErrFlag} (h : s.status.flag f = true) :
    (rejectCommand s).status.flag f = true := by
  cases f with
  | errIll => rfl
  | errBusy => exact h
  | errAcc => exact h
  | range => exact h

/-- The end of a command touches no error flag (R84). -/
theorem finish_flag (s : State) (f : ErrFlag) : (finish s).status.flag f = s.status.flag f := by
  cases f <;> rfl

/-- The kinds of change a host access makes to STATUS (R72, R76, R81). -/
inductive AccessChange (off : Nat) (op : BusOp) (s t : State) : Prop where
  | quiet (h : s.status.Quiet t.status)
  | accepted (w : Word) (hoff : off = 0x30) (hop : op = .write .w4 w) (hlegal : legal w = true)
      (ht : t = acceptCommand w s)
  | rejected (w : Word) (hoff : off = 0x30) (hop : op = .write .w4 w) (hfree : s.status.busy = false)
      (hlegal : legal w = false) (ht : t = rejectCommand s)
  | cleared (v : Word) (hoff : off = 0x34) (hop : op = .write .w4 v) (ht : t.status = s.status.write v)

/-- Every host access changes STATUS in one of these ways. -/
theorem hostAccess_status {off : Nat} {op : BusOp} {s t : State} (h : hostAccess off op s = .next t) :
    AccessChange off op s t := by
  cases op with
  | read n =>
    obtain ⟨-, -, v, -, rfl⟩ | ⟨-, -, rfl⟩ | ⟨-, rfl⟩ := hostRead_next.1 h
    · exact .quiet (.refl _)
    · exact .quiet (.refl _)
    · exact .quiet (Status.quiet_raise s.status .errAcc)
  | write n v =>
    rw [hostAccess, hostWrite_next] at h
    cases h
    split
    · rename_i hacc
      obtain ⟨-, -, hw⟩ | ⟨-, -, hw⟩ | ⟨hoff, rfl, -, hlegal, hw⟩ | ⟨hoff, rfl, hfree, hlegal, hw⟩
        | ⟨hoff, rfl, hw⟩ | ⟨-, -, hw⟩ | ⟨-, -, hw⟩ | ⟨-, -, hw⟩ | ⟨-, -, -, hw⟩ | ⟨-, -, -, hw⟩ | ⟨-, -, -, hw⟩ :=
        permittedWrite_cases v s hacc <;> rw [hw]
      · exact .quiet (Status.quiet_raise s.status .errBusy)
      · exact .quiet (Status.quiet_vvalid s.status _)
      · exact .accepted v hoff rfl hlegal rfl
      · exact .rejected v hoff rfl hfree hlegal rfl
      · exact .cleared v hoff rfl rfl
      all_goals exact .quiet (.refl _)
    · exact .quiet (Status.quiet_raise s.status .errAcc)

/-- The kinds of change a step makes to STATUS, each with whose turn it was. -/
inductive StatusChange (s t : State) : Prop where
  | quiet (h : s.status.Quiet t.status)
  | completed (rest : List Event) (hturn : blockNext s rest) (hbusy : s.status.busy = true)
      (hdone : t.status.done = true) (hflags : ∀ f, s.status.flag f = true → t.status.flag f = true)
  | accepted (w : Word) (rest : List Event) (hturn : hostNext s 0x30 (.write .w4 w) rest)
      (hlegal : legal w = true) (ht : t = acceptCommand w (takeTurn rest s))
  | rejected (w : Word) (rest : List Event) (hturn : hostNext s 0x30 (.write .w4 w) rest)
      (hfree : s.status.busy = false) (hlegal : legal w = false) (ht : t = rejectCommand (takeTurn rest s))
  | cleared (v : Word) (rest : List Event) (hturn : hostNext s 0x34 (.write .w4 v) rest)
      (ht : t.status = s.status.write v)
  | reset (rest : List Event) (hturn : s.agenda = .reset :: rest) (ht : t.status = Status.reset)

/-- Every step changes STATUS in one of these ways. -/
theorem step_status {s t : State} (h : step s = .next t) : StatusChange s t := by
  obtain ⟨-, -, rfl⟩ | ⟨rest, i, u, hturn, hbusy, -, hexec, rfl⟩ | ⟨rest, -, -, rfl⟩ | ⟨_, _, rest, -, -, rfl⟩
    | ⟨off, op, rest, hturn, hhost⟩ | ⟨rest, hturn, rfl⟩ := step_cases h
  · exact .quiet (.refl _)
  · obtain ⟨e, -, rfl⟩ := exec_next hexec
    refine .completed rest hturn hbusy rfl fun f hf => ?_
    rw [finish_flag]
    exact e.apply_flag hf
  · exact .quiet (.refl _)
  · exact .quiet (.refl _)
  · cases hostAccess_status hhost with
    | quiet hq => exact .quiet hq
    | accepted w hoff hop hlegal ht =>
      subst hoff hop
      exact .accepted w rest hturn hlegal ht
    | rejected w hoff hop hfree hlegal ht =>
      subst hoff hop
      exact .rejected w rest hturn hfree hlegal ht
    | cleared v hoff hop ht =>
      subst hoff hop
      exact .cleared v rest hturn ht
  · exact .reset rest hturn rfl

/-- A bit that keeps its value neither rises nor falls. -/
theorem no_edge_of_eq {b b' : Bool} (h : b' = b) {Rise Fall : Prop} :
    (b = false → b' = true → Rise) ∧ (b = true → b' = false → Fall) := by
  subst h
  exact ⟨fun h0 h1 => by simp [h0] at h1, fun h1 h0 => by simp [h1] at h0⟩

/-- Settles O17: DONE rises at a completion or a rejected command, and falls at a write of STATUS or a reset. -/
theorem doneChangesOnly : Obligations.DoneChangesOnly := by
  intro s t h
  cases step_status h with
  | quiet hq => exact no_edge_of_eq hq.done
  | completed rest hturn hbusy hdone => exact ⟨fun _ _ => .inl ⟨hbusy, rest, hturn⟩, by simp [hdone]⟩
  | accepted w rest hturn hlegal ht => exact no_edge_of_eq (by simp [ht])
  | rejected w rest hturn hfree hlegal ht =>
    exact ⟨fun _ _ => .inr ⟨hfree, w, rest, hturn, hlegal⟩, by simp [ht]⟩
  | cleared v rest hturn ht =>
    rw [ht, Status.write_done]
    exact ⟨fun hs hd => by simp [hs] at hd, fun hs hd => .inl ⟨v, rest, hturn, by simpa [hs] using hd⟩⟩
  | reset rest hturn ht => exact ⟨by simp [ht, Status.reset], fun _ _ => .inr ⟨rest, hturn⟩⟩

/-- Settles O19: BUSY rises at an acceptance, and falls at a completion or a reset. -/
theorem busyChangesOnly : Obligations.BusyChangesOnly := by
  intro s t h
  cases step_status h with
  | quiet hq => exact no_edge_of_eq hq.busy
  | completed rest hturn hbusy => exact ⟨by simp [hbusy], fun _ _ => .inl ⟨rest, hturn⟩⟩
  | accepted w rest hturn hlegal ht => exact ⟨fun _ _ => ⟨w, rest, hturn, hlegal, by simp [ht]⟩, by simp [ht]⟩
  | rejected w rest hturn hfree hlegal ht => exact no_edge_of_eq (by simp [ht])
  | cleared v rest hturn ht => exact no_edge_of_eq (by simp [ht])
  | reset rest hturn ht => exact ⟨by simp [ht, Status.reset], fun _ _ => .inr ⟨rest, hturn⟩⟩

/-- Settles O20: of the kinds of step, only a write of STATUS and a reset clear an error flag. -/
theorem errorFlagsAreSticky : Obligations.ErrorFlagsAreSticky := by
  intro s t f h hset hclear
  cases step_status h with
  | quiet hq => simp [hq.flags f hset] at hclear
  | completed rest hturn hbusy hdone hflags => simp [hflags f hset] at hclear
  | accepted w rest hturn hlegal ht =>
    rw [ht, acceptCommand_flag, takeTurn_status, hset] at hclear
    cases hclear
  | rejected w rest hturn hfree hlegal ht =>
    have hkept := rejectCommand_flag (s := takeTurn rest s) hset
    rw [ht, hkept] at hclear
    cases hclear
  | cleared v rest hturn ht =>
    refine .inl ⟨v, rest, hturn, ?_⟩
    simpa [ht, Status.flag_write, hset] using hclear
  | reset rest hturn ht => exact .inr ⟨rest, hturn⟩

end Sys2Proof.Machine
end

section
/-! SUPPORT. The host's accesses and a pending command (R42, R49, R80, R83): a read answers and changes nothing, a guarded
write is dropped while BUSY = 1, and so every host access keeps the part of the state the command reads and writes. -/

namespace Sys2Proof.Machine

/-! ### The window and the register map -/

/-- The step when the host moves next, at any bus address (R50). -/
theorem step_bus {s : State} {addr : Nat} {op : BusOp} {rest : List Event} (h : s.agenda = .bus addr op :: rest) :
    step s = busAccess addr op (takeTurn rest s) := by
  simp [step, agentStep, h]

/-- The addresses the block does not decode (R35). -/
theorem windowOffset_none {addr : Nat} :
    windowOffset addr = none ↔ addr < Config.base ∨ Config.base + Config.windowSize ≤ addr := by
  unfold windowOffset
  split <;> simp <;> omega

theorem busAccess_outside {addr : Nat} (h : windowOffset addr = none) (op : BusOp) (s : State) :
    busAccess addr op s = .next s := by
  simp [busAccess, h]

/-- Settles O28. -/
theorem outsideWindowIsIgnored : Obligations.OutsideWindowIsIgnored := by
  intro s addr op rest hturn haddr
  rw [step_bus hturn, busAccess_outside (windowOffset_none.2 haddr)]
  rfl

/-- The narrow accesses: PKTBUF and writes of CRC_DATA (R37, R38). -/
theorem accOK_narrow {off : Nat} {n : Width} {dir : Dir} (hn : n ≠ .w4) :
    accOK off n dir = true ↔ off % n.bytes = 0
      ∧ (off + n.bytes ≤ 0x28 ∨ (dir = .write ∧ 0x44 ≤ off ∧ off + n.bytes ≤ 0x48)) := by
  simp [accOK, hn, and_assoc]

/-- The word accesses: PKTBUF, and each register at its own offset (R37). -/
theorem accOK_word {off : Nat} {dir : Dir} :
    accOK off .w4 dir = true ↔ (off % 4 = 0 ∧ off + 4 ≤ 0x28)
      ∨ (dir = .write ∧ off ∈ [0x30, 0x44]) ∨ off ∈ [0x34, 0x38, 0x40, 0x50, 0x58, 0x5C]
      ∨ (dir = .read ∧ off ∈ [0x48, 0x4C, 0x54, 0x60, 0x64]) := by
  cases dir <;> simp [accOK, Width.bytes] <;> omega

/-- Settles O25: a narrow access meets only the rows of PKTBUF and CRC_DATA, and a word inside any other row starts at
the row's first byte. -/
theorem permittedAccessesAreTheMap : Obligations.PermittedAccessesAreTheMap := by
  intro off n dir
  cases n with
  | w1 | w2 =>
    rw [accOK_narrow (by decide)]
    cases dir <;> simp [regMap]
  | w4 =>
    rw [accOK_word]
    cases dir <;> simp [regMap, Width.bytes] <;> omega

/-! ### Reads -/

/-- A permitted read answers a value and changes nothing, and read again it answers that value (R42). -/
theorem hostRead_permitted {off : Nat} {n : Width} {s t : State} (hacc : accOK off n .read = true)
    (h : hostRead off n s = .next t) :
    ∃ v, t = answerWith v s
      ∧ ∀ rest, hostRead off n (takeTurn rest t) = .next (answerWith v (takeTurn rest t)) := by
  obtain ⟨-, hpkt, v, hv, rfl⟩ | ⟨-, hreg, rfl⟩ | ⟨hbad, -⟩ := hostRead_next.1 h
  · exact ⟨v, rfl, fun rest => hostRead_next.2 (.inl ⟨hacc, hpkt, v, hv, rfl⟩)⟩
  · exact ⟨_, rfl, fun rest => hostRead_next.2 (.inr (.inl ⟨hacc, hreg, rfl⟩))⟩
  · simp [hacc] at hbad

/-- A bad read answers 0 and raises ERR_ACC (R134). -/
theorem hostRead_bad {off : Nat} {n : Width} {s : State} (hacc : accOK off n .read = false) :
    hostRead off n s = .next (answerWith 0#32 (raiseErr .errAcc s)) :=
  hostRead_next.2 (.inr (.inr ⟨hacc, rfl⟩))

/-- Settles O27. -/
theorem readsHaveNoSideEffects : Obligations.ReadsHaveNoSideEffects := by
  intro s t off n rest hturn h
  rw [step_host hturn, hostAccess] at h
  cases hacc : accOK off n .read with
  | false =>
    rw [hostRead_bad hacc] at h
    cases h
    exact ⟨⟨0#32, rfl⟩, by simp⟩
  | true =>
    obtain ⟨v, rfl, hagain⟩ := hostRead_permitted hacc h
    refine ⟨⟨v, rfl⟩, fun rest' u _ hrest hu => ?_⟩
    rw [step_host (rest := rest') ⟨hrest, hturn.2⟩, hostAccess, hagain] at hu
    cases hu
    rfl

/-! ### A pending command -/

/-- What a pending command reads and writes (R83, R84), with its verdict and BUSY. -/
structure CommandPart where
  busy : Bool
  pend : Word
  pkt : Memory
  iarg : Word
  farg : Double
  pcrc : Word
  ires : Word
  fres : Double
  vres : VRes
  vvalid : Bool

/-- That part of a state. -/
def State.commandPart (s : State) : CommandPart where
  busy := s.status.busy
  pend := s.pend
  pkt := s.pkt
  iarg := s.iarg
  farg := s.farg
  pcrc := s.pcrc
  ires := s.ires
  fres := s.fres
  vres := s.status.vres
  vvalid := s.status.vvalid

/-- No write takes a turn from the agenda. -/
theorem permittedWrite_agenda {off : Nat} {n : Width} (v : Word) (s : State) (h : accOK off n .write = true) :
    (permittedWrite off n v s).agenda = s.agenda := by
  obtain ⟨-, -, hw⟩ | ⟨-, -, hw⟩ | ⟨-, -, -, -, hw⟩ | ⟨-, -, -, -, hw⟩ | ⟨-, -, hw⟩ | ⟨-, -, hw⟩ | ⟨-, -, hw⟩
    | ⟨-, -, hw⟩ | ⟨-, -, -, hw⟩ | ⟨-, -, -, hw⟩ | ⟨-, -, -, hw⟩ := permittedWrite_cases v s h
  all_goals exact (congrArg State.agenda hw).trans rfl

/-- While BUSY = 1 a write is dropped by the busy guard, or goes to STATUS, CTRL or the CRC accumulator (R80). -/
theorem permittedWrite_commandPart {off : Nat} {n : Width} (v : Word) {s : State} (h : accOK off n .write = true)
    (hbusy : s.status.busy = true) : (permittedWrite off n v s).commandPart = s.commandPart := by
  have hcases := permittedWrite_cases v s h
  simp only [hbusy, Bool.true_eq_false, false_and, and_false, false_or, or_false, true_and] at hcases
  obtain ⟨-, hw⟩ | ⟨-, -, hw⟩ | ⟨-, -, hw⟩ | ⟨-, -, hw⟩ | ⟨-, -, hw⟩ := hcases
  all_goals exact (congrArg State.commandPart hw).trans rfl

/-- A host access while BUSY = 1 keeps what the pending command reads and writes, and the turns still to come. -/
theorem hostAccess_pending {off : Nat} {op : BusOp} {s t : State} (hbusy : s.status.busy = true)
    (h : hostAccess off op s = .next t) : t.commandPart = s.commandPart ∧ t.agenda = s.agenda := by
  cases op with
  | read n =>
    obtain ⟨-, -, v, -, rfl⟩ | ⟨-, -, rfl⟩ | ⟨-, rfl⟩ := hostRead_next.1 h <;> exact ⟨rfl, rfl⟩
  | write n v =>
    rw [hostAccess, hostWrite_next] at h
    cases h
    split
    · rename_i hacc
      exact ⟨permittedWrite_commandPart v hacc hbusy, permittedWrite_agenda v s hacc⟩
    · exact ⟨rfl, rfl⟩

/-- The same of an access anywhere on the bus, as a step. -/
theorem step_bus_pending {s t : State} {addr : Nat} {op : BusOp} {rest : List Event}
    (hturn : s.agenda = .bus addr op :: rest) (hbusy : s.status.busy = true) (h : step s = .next t) :
    t.commandPart = s.commandPart ∧ t.agenda = rest := by
  rw [step_bus hturn] at h
  cases hoff : windowOffset addr with
  | none =>
    rw [busAccess_outside hoff] at h
    cases h
    exact ⟨rfl, rfl⟩
  | some off =>
    obtain ⟨rfl, hlt⟩ := windowOffset_some.1 hoff
    rw [busAccess_base hlt] at h
    exact hostAccess_pending (s := takeTurn rest s) hbusy h

/-- A run of one step more answers a next state exactly when its first step and the rest of it do. -/
theorem run_succ_next {M : Host.Core} {k : Nat} {s t : M.State} :
    M.run (k + 1) s = .next t ↔ ∃ u, M.step s = .next u ∧ M.run k u = .next t := by
  rw [Host.Core.run]
  cases M.step s <;> simp

/-- Every run of host accesses keeps what the pending command reads and writes. -/
theorem run_onlyHost_commandPart {k : Nat} {s t : State} (hbusy : s.status.busy = true) (hk : k ≤ s.agenda.length)
    (hhost : onlyHost (s.agenda.take k)) (h : Host.Core.run Sys2Proof.core k s = .next t) :
    t.commandPart = s.commandPart := by
  induction k generalizing s with
  | zero =>
    cases h
    rfl
  | succ k ih =>
    obtain ⟨u, hstep, hrun⟩ := run_succ_next.1 h
    match hagenda : s.agenda with
    | [] => simp [hagenda] at hk
    | .block :: rest | .reset :: rest => simp [hagenda, onlyHost, Event.isHost] at hhost
    | .bus addr op :: rest =>
      obtain ⟨hpart, hrest⟩ := step_bus_pending hagenda hbusy hstep
      have hu : u.status.busy = true := (congrArg CommandPart.busy hpart).trans hbusy
      have hlen : k ≤ u.agenda.length := by simpa [hrest, hagenda] using hk
      have hlater : onlyHost (u.agenda.take k) := by
        rw [hagenda, List.take_succ_cons, ← hrest] at hhost
        exact fun e he => hhost e (List.mem_cons_of_mem _ he)
      exact (ih hu hlen hlater hrun).trans hpart

/-- Settles O8. -/
theorem pendingCommandIsUndisturbed : Obligations.PendingCommandIsUndisturbed := by
  intro k s t hbusy hk hhost h
  simpa [State.commandPart, hbusy] using run_onlyHost_commandPart hbusy hk hhost h

end Sys2Proof.Machine
end

section
/-! SUPPORT. The encoding (R59 to R65): a word is its three fields, so the decoder and the encoder are held against each
other on OP and A alone, and the words R64 calls legal are the words of the well-formed commands. -/

namespace Sys2Proof

/-! ### The fields of a word -/

/-- The three fields are the whole word (R60). -/
theorem append_fields (w : Word) : rsvdField w ++ aField w ++ opField w = w := by
  have hhigh : rsvdField w ++ aField w = w.extractLsb' 8 24 := BitVec.extractLsb'_append_extractLsb'_eq_extractLsb' rfl
  have hword : w.extractLsb' 8 24 ++ opField w = w.extractLsb' 0 32 :=
    BitVec.extractLsb'_append_extractLsb'_eq_extractLsb' rfl
  rw [hhigh, hword, BitVec.extractLsb'_eq_self]

/-- The word of a command is the one with its fields (R60, R68). -/
theorem encode_eq_iff {i : Instr} {w : Word} :
    encode i = w ↔ rsvdField w = 0#16 ∧ opField w = encodeOp i ∧ aField w = encodeA i := by
  constructor
  · rintro rfl
    exact Laws.EncodedFields.of_fields _ _
  · rintro ⟨hrsvd, hop, ha⟩
    rw [encode, ← hrsvd, ← ha, ← hop, append_fields]

/-! ### The decoder on OP and A -/

theorem decodePlain_ok {a : Byte} {i j : Instr} : decodePlain a i = .ok j ↔ a = 0#8 ∧ i = j := by
  unfold decodePlain
  split <;> simp_all

/-- The selector codes of R62, in both directions. -/
theorem decodeFSel_some {a : Byte} {f : FSel} : decodeFSel a = some f ↔ a = encodeFSel f := by
  constructor
  · intro h
    unfold decodeFSel at h
    split at h <;> cases h <;> exact BitVec.eq_of_toNat_eq ‹_›
  · rintro rfl
    cases f <;> rfl

theorem decodeSel_ok {a : Byte} {ok : FSel → Bool} {mk : FSel → Instr} {i : Instr} :
    decodeSel a ok mk = .ok i ↔ ∃ f, a = encodeFSel f ∧ ok f = true ∧ mk f = i := by
  unfold decodeSel
  simp only [← decodeFSel_some]
  cases decodeFSel a with
  | none => simp
  | some f => cases hf : ok f <;> simp [hf]

/-- The opcode map of R61, in both directions: OP and A decode to exactly the well-formed command that they encode. -/
theorem decodeFields_ok {op a : Byte} {i : Instr} :
    decodeFields op a = .ok i ↔ op = encodeOp i ∧ a = encodeA i ∧ i.wellFormed = true := by
  constructor
  · intro h
    unfold decodeFields at h
    split at h
    case h_6 hop =>
      cases h
      exact ⟨BitVec.eq_of_toNat_eq hop, rfl, rfl⟩
    case h_7 hop | h_8 hop | h_9 hop | h_10 hop =>
      obtain ⟨f, rfl, hf, rfl⟩ := decodeSel_ok.1 h
      exact ⟨BitVec.eq_of_toNat_eq hop, rfl, hf⟩
    case h_11 => cases h
    all_goals
      rename_i hop
      obtain ⟨rfl, rfl⟩ := decodePlain_ok.1 h
      exact ⟨BitVec.eq_of_toNat_eq hop, rfl, rfl⟩
  · rintro ⟨rfl, rfl, hwf⟩
    cases i with
    | nop | validate | crcpkt | sealPkt | sethdr => exact decodePlain_ok.2 ⟨rfl, rfl⟩
    | setseq imm8 => rfl
    | cvtt f | cvtq f | enct f | encq f => exact decodeSel_ok.2 ⟨f, rfl, hwf, rfl⟩

/-! ### The decoder and the encoder -/

/-- The decoder answers exactly the well-formed command whose word it is given (R60 to R64). -/
theorem decode_ok {w : Word} {i : Instr} : decode w = .ok i ↔ encode i = w ∧ i.wellFormed = true := by
  rw [encode_eq_iff, and_assoc, and_assoc, ← decodeFields_ok]
  unfold decode
  split <;> simp_all

/-- Settles O1. -/
theorem decodeInvertsEncode : Obligations.DecodeInvertsEncode :=
  fun _ hwf => decode_ok.2 ⟨rfl, hwf⟩

/-- Settles O2. -/
theorem encodeInvertsDecode : Obligations.EncodeInvertsDecode :=
  fun _ _ h => decode_ok.1 h

/-- Settles O5, by evaluating the decoder on each word. -/
theorem specWordsDecode : Obligations.SpecWordsDecode := by
  unfold Obligations.SpecWordsDecode
  decide

/-! ### The legal words -/

theorem legal_iff {w : Word} :
    legal w = true ↔ rsvdField w = 0#16 ∧
      ((opField w).toNat ≤ 4 ∧ aField w = 0#8 ∨ opField w = 0x05#8
        ∨ (opField w = 0x10#8 ∨ opField w = 0x12#8) ∧ (aField w = 0#8 ∨ aField w = 7#8)
        ∨ (opField w = 0x11#8 ∨ opField w = 0x13#8) ∧ 1 ≤ (aField w).toNat ∧ (aField w).toNat ≤ 7) := by
  simp [legal, and_assoc, or_assoc]

/-- The operand set of CVTT and ENCT: the codes 0 and 7 (R61, R62). -/
theorem exists_tempSel_iff {a : Byte} : (∃ f : FSel, a = encodeFSel f ∧ f.isTempSel = true) ↔ a = 0#8 ∨ a = 7#8 := by
  constructor
  · rintro ⟨f, rfl, hf⟩
    cases f <;> revert hf <;> decide
  · rintro (rfl | rfl)
    · exact ⟨.temp, rfl, rfl⟩
    · exact ⟨.arg, rfl, rfl⟩

/-- The operand set of CVTQ and ENCQ: the codes 1 to 7 (R61, R62). -/
theorem exists_qSel_iff {a : Byte} :
    (∃ f : FSel, a = encodeFSel f ∧ f.isQSel = true) ↔ 1 ≤ a.toNat ∧ a.toNat ≤ 7 := by
  constructor
  · rintro ⟨f, rfl, hf⟩
    cases f <;> revert hf <;> decide
  · rintro ⟨hlo, hhi⟩
    have hcode : a ∈ [1#8, 2#8, 3#8, 4#8, 5#8, 6#8, 7#8] := by
      simp only [List.mem_cons, List.not_mem_nil, or_false, ← BitVec.toNat_inj, BitVec.toNat_ofNat]
      omega
    fin_cases hcode
    exacts [⟨.gyro0, rfl, rfl⟩, ⟨.gyro1, rfl, rfl⟩, ⟨.gyro2, rfl, rfl⟩, ⟨.accel0, rfl, rfl⟩, ⟨.accel1, rfl, rfl⟩,
      ⟨.accel2, rfl, rfl⟩, ⟨.arg, rfl, rfl⟩]

/-- OP and A of the well-formed commands are what R64 asks of them. -/
theorem exists_wellFormed_iff {op a : Byte} :
    (∃ i : Instr, op = encodeOp i ∧ a = encodeA i ∧ i.wellFormed = true) ↔
      op.toNat ≤ 4 ∧ a = 0#8 ∨ op = 0x05#8 ∨ (op = 0x10#8 ∨ op = 0x12#8) ∧ (a = 0#8 ∨ a = 7#8)
        ∨ (op = 0x11#8 ∨ op = 0x13#8) ∧ 1 ≤ a.toNat ∧ a.toNat ≤ 7 := by
  constructor
  · rintro ⟨i, rfl, rfl, hwf⟩
    cases i with
    | nop | validate | crcpkt | sealPkt | sethdr => exact .inl (by decide)
    | setseq imm8 => exact .inr (.inl rfl)
    | cvtt f => exact .inr (.inr (.inl ⟨.inl rfl, exists_tempSel_iff.1 ⟨f, rfl, hwf⟩⟩))
    | enct f => exact .inr (.inr (.inl ⟨.inr rfl, exists_tempSel_iff.1 ⟨f, rfl, hwf⟩⟩))
    | cvtq f => exact .inr (.inr (.inr ⟨.inl rfl, exists_qSel_iff.1 ⟨f, rfl, hwf⟩⟩))
    | encq f => exact .inr (.inr (.inr ⟨.inr rfl, exists_qSel_iff.1 ⟨f, rfl, hwf⟩⟩))
  · rintro (⟨hop, rfl⟩ | rfl | ⟨hop, ha⟩ | ⟨hop, ha⟩)
    · have hplain : op ∈ [0x00#8, 0x01#8, 0x02#8, 0x03#8, 0x04#8] := by
        simp only [List.mem_cons, List.not_mem_nil, or_false, ← BitVec.toNat_inj, BitVec.toNat_ofNat]
        omega
      fin_cases hplain
      exacts [⟨.nop, rfl, rfl, rfl⟩, ⟨.validate, rfl, rfl, rfl⟩, ⟨.crcpkt, rfl, rfl, rfl⟩, ⟨.sealPkt, rfl, rfl, rfl⟩,
        ⟨.sethdr, rfl, rfl, rfl⟩]
    · exact ⟨.setseq a, rfl, rfl, rfl⟩
    · obtain ⟨f, rfl, hf⟩ := exists_tempSel_iff.2 ha
      obtain rfl | rfl := hop
      exacts [⟨.cvtt f, rfl, rfl, hf⟩, ⟨.enct f, rfl, rfl, hf⟩]
    · obtain ⟨f, rfl, hf⟩ := exists_qSel_iff.2 ha
      obtain rfl | rfl := hop
      exacts [⟨.cvtq f, rfl, rfl, hf⟩, ⟨.encq f, rfl, rfl, hf⟩]

/-- A word is legal exactly when it is the word of a well-formed command (R64, R65). -/
theorem legal_iff_encode {w : Word} : legal w = true ↔ ∃ i : Instr, encode i = w ∧ i.wellFormed = true := by
  simp only [legal_iff, encode_eq_iff, ← exists_wellFormed_iff, and_assoc, exists_and_left]

/-- Settles O3. -/
theorem legalWordsAreTheDecodable : Obligations.LegalWordsAreTheDecodable := by
  intro w
  simp only [legal_iff_encode, decode_ok]

/-! ### Their number -/

/-- Every well-formed command (R61, R64). -/
def wellFormedInstrs : List Instr :=
  [.nop, .validate, .crcpkt, .sealPkt, .sethdr, .cvtt .temp, .cvtt .arg, .enct .temp, .enct .arg,
    .cvtq .gyro0, .cvtq .gyro1, .cvtq .gyro2, .cvtq .accel0, .cvtq .accel1, .cvtq .accel2, .cvtq .arg,
    .encq .gyro0, .encq .gyro1, .encq .gyro2, .encq .accel0, .encq .accel1, .encq .accel2, .encq .arg]
    ++ (List.finRange 256).map fun n => .setseq (BitVec.ofFin n)

theorem wellFormedInstrs_length : wellFormedInstrs.length = 279 := by
  rw [wellFormedInstrs, List.length_append, List.length_map, List.length_finRange]
  rfl

theorem mem_wellFormedInstrs {i : Instr} : i ∈ wellFormedInstrs ↔ i.wellFormed = true := by
  rw [wellFormedInstrs, List.mem_append, List.mem_map]
  cases i with
  | setseq imm8 => exact iff_of_true (.inr ⟨imm8.toFin, List.mem_finRange _, rfl⟩) rfl
  | nop | validate | crcpkt | sealPkt | sethdr => simp [Instr.wellFormed]
  | cvtt f | cvtq f | enct f | encq f => cases f <;> simp [Instr.wellFormed, FSel.isTempSel, FSel.isQSel]

theorem wellFormedInstrs_nodup : wellFormedInstrs.Nodup := by
  refine List.nodup_append.2 ⟨by decide, (List.nodup_finRange 256).map fun m n h => ?_, ?_⟩
  · injection h with h
    injection h
  · simp

/-- Settles O4: the words of the well-formed commands, which are distinct because the decoder tells them apart. -/
theorem legalWordCount : Obligations.LegalWordCount := by
  refine ⟨wellFormedInstrs.map encode, ?_, ?_, fun w => ?_⟩
  · refine List.Nodup.map_on (fun i hi j hj h => ?_) wellFormedInstrs_nodup
    have hdecode : decode (encode j) = .ok i := decode_ok.2 ⟨h, mem_wellFormedInstrs.1 hi⟩
    rw [decodeInvertsEncode j (mem_wellFormedInstrs.1 hj)] at hdecode
    exact (Except.ok.inj hdecode).symm
  · rw [List.length_map, wellFormedInstrs_length]
  · simp only [legal_iff_encode, List.mem_map, mem_wellFormedInstrs, and_comm]

end Sys2Proof
end

section
/-! SUPPORT. Refusals (R65, log 14, log 15): a command refuses exactly when its selector is outside its set, and a step
only through its completion step, so a legal pending word excludes both reasons. -/

namespace Sys2Proof.Machine

theorem withRead_not_refused {α : Type} {r : Except Fault α} {k : α → State} {x : Refusal} :
    withRead r (fun a => .next (k a)) ≠ .refused x := by
  simp [withRead_refused]

/-- A command is refused, by its mnemonic, exactly when its selector is outside its legal set (R64, R65). -/
theorem exec_refused {i : Instr} {s : State} {r : Refusal} :
    exec i s = .refused r ↔ i.wellFormed = false ∧ r = .illegalSelector i.mnemonic := by
  cases i with
  | nop | sethdr | setseq imm8 => exact iff_of_false (fun h => nomatch h) (fun h => nomatch h.1)
  | validate | crcpkt | sealPkt => exact iff_of_false withRead_not_refused (fun h => nomatch h.1)
  | cvtt f =>
    rw [exec, execCvtt, Instr.wellFormed]
    cases f.isTempSel with
    | true => simpa using withRead_not_refused
    | false => simp [Instr.mnemonic, eq_comm]
  | cvtq f =>
    rw [exec, execCvtq, Instr.wellFormed]
    cases f.isQSel with
    | true => simpa using withRead_not_refused
    | false => simp [Instr.mnemonic, eq_comm]
  | enct f =>
    rw [exec, execEnct, Instr.wellFormed]
    cases f.isTempSel <;> simp [Instr.mnemonic, eq_comm]
  | encq f =>
    rw [exec, execEncq, Instr.wellFormed]
    cases f.isQSel <;> simp [Instr.mnemonic, eq_comm]

/-- Settles O53. -/
theorem illegalSelectorsAreRefused : Obligations.IllegalSelectorsAreRefused := by
  refine fun s a => ⟨fun htemp harg => ?_, ?_⟩
  · have hsel : a.isTempSel = false := by
      cases a with
      | temp => exact absurd rfl htemp
      | arg => exact absurd rfl harg
      | gyro0 | gyro1 | gyro2 | accel0 | accel1 | accel2 => rfl
    exact ⟨exec_refused.2 ⟨hsel, rfl⟩, exec_refused.2 ⟨hsel, rfl⟩⟩
  · rintro rfl
    exact ⟨exec_refused.2 ⟨rfl, rfl⟩, exec_refused.2 ⟨rfl, rfl⟩⟩

/-- The completion step refuses exactly when PEND does not decode or the command is refused (log 14, log 15). -/
theorem complete_refused {s : State} {r : Refusal} :
    complete s = .refused r ↔ (∃ e, decode s.pend = .error e ∧ r = .illegalPending)
      ∨ ∃ i, decode s.pend = .ok i ∧ exec i s = .refused r := by
  unfold complete
  cases decode s.pend with
  | error e => simp [eq_comm]
  | ok i => cases h : exec i s <;> simp [h]

/-- The completion step of a legal word is not refused (R81, R84). -/
theorem complete_not_refused {s : State} {r : Refusal} (hlegal : legal s.pend = true) : complete s ≠ .refused r := by
  obtain ⟨i, hdecode⟩ := (legalWordsAreTheDecodable s.pend).1 hlegal
  obtain ⟨-, hwf⟩ := encodeInvertsDecode s.pend i hdecode
  simp [complete_refused, hdecode, exec_refused, hwf]

theorem busAccess_not_refused {addr : Nat} {op : BusOp} {s : State} {r : Refusal} :
    busAccess addr op s ≠ .refused r := by
  unfold busAccess
  split
  · exact hostAccess_not_refused
  · simp

/-- If a step is refused, it is the completion step of a pending command. -/
theorem step_refused {s : State} {r : Refusal} (h : step s = .refused r) :
    s.status.busy = true ∧ ∃ rest, complete (takeTurn rest s) = .refused r := by
  unfold step agentStep at h
  split at h
  · split at h
    · exact ⟨‹_›, [], h⟩
    · cases h
  · rename_i rest _
    unfold blockTurn at h
    split at h
    · exact ⟨‹_›, rest, h⟩
    · cases h
  · exact absurd h busAccess_not_refused
  · cases h

/-- Settles O15. -/
theorem stepNeverRefuses : Obligations.StepNeverRefuses := by
  intro s r hlegal h
  obtain ⟨hbusy, rest, hcomplete⟩ := step_refused h
  exact complete_not_refused (s := takeTurn rest s) (hlegal hbusy) hcomplete

end Sys2Proof.Machine
end

section
/-! SUPPORT. The WAIT loop (R70): a poll reads BUSY and leaves the loop's next test as it was, and the block's turn
leaves BUSY = 0 for the last poll. -/

namespace Sys2Proof.Machine

/-- What the block's turn leaves: BUSY = 0, no answer, and the rest of the agenda (R84). -/
theorem step_blockTurn {s t : State} {rest : List Event} (hturn : s.agenda = .block :: rest) (h : step s = .next t) :
    t.agenda = rest ∧ t.answer = none ∧ t.status.busy = false := by
  cases hbusy : s.status.busy with
  | true =>
    rw [step_block (.inl hturn) hbusy] at h
    obtain ⟨i, u, -, hexec, rfl⟩ := complete_next.1 h
    obtain ⟨e, -, rfl⟩ := exec_next hexec
    exact ⟨rfl, rfl, rfl⟩
  | false =>
    simp only [step, agentStep, hturn, blockTurn, takeTurn_status, hbusy] at h
    cases h
    exact ⟨rfl, rfl, hbusy⟩

theorem run_one {s t : State} : Host.Core.run Sys2Proof.core 1 s = .next t ↔ step s = .next t := by
  refine run_succ_next.trans ⟨?_, fun h => ⟨t, h, rfl⟩⟩
  rintro ⟨u, hstep, hrun⟩
  cases hrun
  exact hstep

namespace HostProgram

/-- One poll, as an inversion: it answers STATUS, whose bit 0 is BUSY, and keeps STATUS (R42, R75). -/
theorem poll_next {s t : State} {rest : List Event} (hturn : s.agenda = LW STATUS :: rest) (h : step s = .next t) :
    t.agenda = rest ∧ t.status = s.status ∧ ∃ v, t.answer = some v ∧ v.getLsbD 0 = s.status.busy := by
  rw [step_poll hturn] at h
  cases h
  exact ⟨rfl, rfl, _, rfl, goesOn_status (takeTurn rest s)⟩

/-- WAIT's accesses are fixed by STATUS. -/
theorem wait_congr {s t : State} (h : t.status = s.status) (k : Nat) : wait k t = wait k s := by
  cases hbusy : s.status.busy with
  | true => rw [wait_busy hbusy, wait_busy (h ▸ hbusy)]
  | false =>
    cases k with
    | zero => rfl
    | succ k => rw [wait_idle k hbusy, wait_idle k (h ▸ hbusy)]

/-- A run of `n` steps from `s` to `t` reads bit 0 = 0 at its last step and 1 at every earlier one that reads, with
`rest` still to come (R70). -/
structure EndsAtFirstIdlePoll (n : Nat) (s t : State) (rest : List Event) : Prop where
  agenda : t.agenda = rest
  idle : t.status.busy = false
  last : ∃ v, t.answer = some v ∧ v.getLsbD 0 = false
  earlier : ∀ (j : Nat) (u : State) (v : Word), 0 < j → j < n →
    Host.Core.run Sys2Proof.core j s = .next u → u.answer = some v → v.getLsbD 0 = true

/-- A poll that finds BUSY = 0 ends the loop. -/
theorem endsAtFirstIdlePoll_poll {s t : State} {rest : List Event} (hturn : s.agenda = LW STATUS :: rest)
    (hbusy : s.status.busy = false) (h : step s = .next t) : EndsAtFirstIdlePoll 1 s t rest := by
  obtain ⟨hagenda, hstatus, v, hv, hbit⟩ := poll_next hturn h
  exact ⟨hagenda, hstatus ▸ hbusy, ⟨v, hv, hbit.trans hbusy⟩, fun j _ _ hpos hlt => by omega⟩

/-- A step that answers nothing, or a value with bit 0 = 1, may stand before a run of the loop. -/
theorem EndsAtFirstIdlePoll.cons {n : Nat} {s u t : State} {rest : List Event} (hstep : step s = .next u)
    (hanswer : ∀ v, u.answer = some v → v.getLsbD 0 = true) (h : EndsAtFirstIdlePoll n u t rest) :
    EndsAtFirstIdlePoll (n + 1) s t rest := by
  refine ⟨h.agenda, h.idle, h.last, fun j u' v hpos hlt hrun hv => ?_⟩
  obtain _ | j := j
  · omega
  obtain ⟨w, hw, hrun⟩ := run_succ_next.1 hrun
  obtain rfl : u = w := Host.Outcome.next.inj (hstep.symm.trans hw)
  obtain _ | j := j
  · cases hrun
    exact hanswer v hv
  · exact h.earlier (j + 1) u' v (by omega) (by omega) hrun hv

/-- A run over WAIT ends at the first idle poll, by induction on the polls before the block's turn. -/
theorem run_wait {k : Nat} {s t : State} {rest : List Event} (hagenda : s.agenda = wait k s ++ rest)
    (h : Host.Core.run Sys2Proof.core (wait k s).length s = .next t) :
    EndsAtFirstIdlePoll (wait k s).length s t rest := by
  induction k generalizing s with
  | zero =>
    obtain ⟨u, hstep, hrun⟩ := run_succ_next.1 h
    obtain ⟨hnext, hanswer, hidle⟩ := step_blockTurn hagenda hstep
    exact (endsAtFirstIdlePoll_poll hnext hidle (run_one.1 hrun)).cons hstep (by simp [hanswer])
  | succ k ih =>
    cases hbusy : s.status.busy with
    | false =>
      rw [wait_idle k hbusy] at hagenda h ⊢
      exact endsAtFirstIdlePoll_poll hagenda hbusy (run_one.1 h)
    | true =>
      have hwait : wait (k + 1) s = LW STATUS :: wait k s := by simp [wait, hbusy]
      rw [hwait] at hagenda h ⊢
      obtain ⟨u, hstep, hrun⟩ := run_succ_next.1 h
      obtain ⟨hnext, hstatus, v, hv, hbit⟩ := poll_next hagenda hstep
      rw [← wait_congr hstatus] at hnext hrun ⊢
      refine (ih hnext hrun).cons hstep fun w hw => ?_
      rw [← Option.some.inj (hv.symm.trans hw), hbit, hbusy]

/-- Settles O60. -/
theorem waitEndsAtFirstIdlePoll : Obligations.WaitEndsAtFirstIdlePoll := by
  intro k s t rest hagenda h
  obtain ⟨hrest, hidle, hlast, hearlier⟩ := run_wait hagenda h
  exact ⟨hrest, hidle, hlast, hearlier⟩

end HostProgram

end Sys2Proof.Machine
end

section
/-! SUPPORT. The registers of the window, one by one (R73 to R81): what a permitted access at each offset reads or
writes, and that it touches nothing else. -/

namespace Sys2Proof.Machine

/-! ### The step of a permitted access -/

/-- A permitted write is what R72 dispatches it to. -/
theorem step_write {s : State} {off : Nat} {n : Width} {v : Word} {rest : List Event}
    (hturn : hostNext s off (.write n v) rest) (hacc : accOK off n .write = true) :
    step s = .next (permittedWrite off n v (takeTurn rest s)) := by
  rw [step_host hturn, hostAccess, hostWrite_next, if_pos hacc]

/-- A permitted read above PKTBUF returns its register (R71). -/
theorem step_regRead {s : State} {off : Nat} {n : Width} {rest : List Event} (hturn : hostNext s off (.read n) rest)
    (hacc : accOK off n .read = true) (habove : ¬ off + n.bytes ≤ 0x28) :
    step s = .next (answerWith (regRead off s) (takeTurn rest s)) := by
  rw [step_host hturn, hostAccess, hostRead, if_pos hacc, if_neg habove]
  rfl

/-- A permitted read of PKTBUF is the read of its bytes (R71, R74). -/
theorem step_pktRead {s : State} {off : Nat} {n : Width} {rest : List Event} (hturn : hostNext s off (.read n) rest)
    (hacc : accOK off n .read = true) (hpkt : off + n.bytes ≤ 0x28) :
    step s = withRead (pktRead off n s) fun v => .next (answerWith v (takeTurn rest s)) := by
  rw [step_host hturn, hostAccess, hostRead, if_pos hacc, if_pos hpkt]
  rfl

/-! ### PKTBUF -/

/-- The little-endian value as the sum of its weighted bytes (R7, R74). -/
theorem leValue_map_range (p : Nat → Byte) (n : Nat) :
    leValue ((List.range n).map p) = ∑ k ∈ Finset.range n, (p k).toNat * 2 ^ (8 * k) := by
  induction n generalizing p with
  | zero => rfl
  | succ n ih =>
    rw [List.range_succ_eq_map, List.map_cons, List.map_map, leValue, ih, Finset.sum_range_succ', Finset.mul_sum,
      Nat.add_comm]
    congr 1
    · refine Finset.sum_congr rfl fun k _ => ?_
      simp only [Function.comp_apply]
      ring
    · simp

/-- A region whose bytes are written reads as those bytes. -/
theorem readBytes_map_range {m : Memory} {off n : Nat} {p : Nat → Byte}
    (h : ∀ k < n, m.byte? (off + k) = some (p k)) : m.readBytes off n = .ok ((List.range n).map p) := by
  refine Memory.readBytes_ok.2 ⟨by simp, fun k hk => ?_⟩
  simp [h k hk, hk]

/-- A region with an unwritten byte faults on one (R17). -/
theorem readBytes_missing {m : Memory} {off n : Nat} (h : missing m off n) :
    ∃ k < n, m.byte? (off + k) = none ∧ m.readBytes off n = .error (.unwrittenRead (off + k)) := by
  cases hread : m.readBytes off n with
  | error f =>
    obtain ⟨k, hk, hnone, -, rfl⟩ := Memory.readBytes_error.1 hread
    exact ⟨k, hk, hnone, rfl⟩
  | ok bs =>
    obtain ⟨hlen, hbytes⟩ := Memory.readBytes_ok.1 hread
    obtain ⟨k, hk, hnone⟩ := h
    have hbyte : bs[k]? = none := (hbytes k hk).symm.trans hnone
    have hshort := List.getElem?_eq_none_iff.1 hbyte
    omega

/-- Settles O29. -/
theorem packetReads : Obligations.PacketReads := by
  intro s off n rest hturn hacc hpkt
  rw [step_pktRead hturn hacc hpkt]
  refine ⟨fun p hp => ?_, fun hmissing => ?_⟩
  · rw [pktRead, readBytes_map_range hp, ← leValue_map_range]
    rfl
  · obtain ⟨k, hk, hnone, hread⟩ := readBytes_missing hmissing
    refine ⟨k, hk, hnone, ?_⟩
    rw [pktRead_error.2 hread, withRead_error]

/-- The bytes of an access are its lanes (R39). -/
theorem leBytes_eq_lanes (n : Width) (v : Word) : leBytes n.bytes v = lanes n v := by
  refine List.ext_getElem? fun k => ?_
  rw [leBytes_getElem?]
  by_cases hk : k < n.bytes <;> simp [lanes, lane, hk]

/-- Settles O30. -/
theorem packetWrites : Obligations.PacketWrites := by
  intro s off n v rest hturn hacc hpkt
  rw [step_write hturn hacc, permittedWrite, if_pos hpkt, pktWrite, leBytes_eq_lanes]
  refine ⟨fun hbusy => ?_, fun hfree => ?_⟩
  · rw [busyGuard_busy (s := takeTurn rest s) hbusy]
    rfl
  · rw [busyGuard_free (s := takeTurn rest s) hfree]
    exact ⟨_, rfl, pktPut_stored off (lanes n v) s, rfl⟩

/-! ### STATUS and CTRL -/

/-- A one-bit field has its value at bit 0. -/
theorem getLsbD_bit (b : Bool) (i : Nat) : (bit b).getLsbD i = (decide (i = 0) && b) := by
  rw [bit, BitVec.getLsbD_setWidth, BitVec.getLsbD_ofBool]
  by_cases hi : i = 0 <;> simp [hi]

/-- The bits of STATUS as R25 lays them out. -/
def Status.bitAt (st : Status) : Nat → Bool
  | 0 => st.busy
  | 1 => st.done
  | 2 => st.vres.code.getLsbD 0
  | 3 => st.vres.code.getLsbD 1
  | 4 => st.vvalid
  | 8 => st.errIll
  | 9 => st.errBusy
  | 10 => st.errAcc
  | 11 => st.range
  | _ => false

/-- Each field of STATUS reads at its bit, and the reserved bits read 0 (R25, R75). -/
theorem statusValue_getLsbD (st : Status) (i : Nat) : (statusValue st).getLsbD i = st.bitAt i := by
  simp only [statusValue, BitVec.getLsbD_or, BitVec.getLsbD_shiftLeft, getLsbD_bit, BitVec.getLsbD_setWidth]
  match i with
  | 0 | 1 | 2 | 3 | 4 | 5 | 6 | 7 | 8 | 9 | 10 | 11 => simp [Status.bitAt]
  | k + 12 =>
    have hcode : st.vres.code.getLsbD (k + 12 - 2) = false := BitVec.getLsbD_of_ge _ _ (by omega)
    rw [hcode]
    simp [Status.bitAt]
/-- VRES is the two-bit code of the result (R28). -/
theorem statusValue_vres (st : Status) : (statusValue st).extractLsb' 2 2 = st.vres.code := by
  ext i hi
  rw [BitVec.getElem_extractLsb', statusValue_getLsbD]
  interval_cases i <;> rfl

theorem statusValue_reserved_low (st : Status) : (statusValue st).extractLsb' 5 3 = 0#3 := by
  ext i hi
  rw [BitVec.getElem_extractLsb', statusValue_getLsbD]
  interval_cases i <;> simp [Status.bitAt]

theorem statusValue_reserved_high (st : Status) : (statusValue st).extractLsb' 12 20 = 0#20 := by
  ext i hi
  rw [BitVec.getElem_extractLsb', statusValue_getLsbD, Nat.add_comm]
  simp only [Status.bitAt, BitVec.getElem_zero]

/-- Settles O31. -/
theorem statusReads : Obligations.StatusReads := by
  intro s rest hturn
  have hbit := statusValue_getLsbD s.status
  refine ⟨statusValue s.status, step_regRead hturn rfl (by decide), hbit 0, hbit 1, ?_, hbit 4,
    statusValue_reserved_low s.status, hbit 8, hbit 9, hbit 10, hbit 11, statusValue_reserved_high s.status⟩
  rw [statusValue_vres]
  cases s.status.vres <;> rfl

/-- A write of STATUS, each flag cleared where the bit written is 1 (R76). -/
theorem Status.write_eq (st : Status) (v : Word) : st.write v = { st with
    done := if v.getLsbD 1 then false else st.done
    errIll := if v.getLsbD 8 then false else st.errIll
    errBusy := if v.getLsbD 9 then false else st.errBusy
    errAcc := if v.getLsbD 10 then false else st.errAcc
    range := if v.getLsbD 11 then false else st.range } := by
  simp only [Status.write, Bool.if_false_left, Bool.decide_eq_true, Bool.and_comm]

/-- Settles O32. -/
theorem statusWriteClears : Obligations.StatusWriteClears := by
  intro s v rest hturn
  rw [← Status.write_eq]
  exact step_write hturn rfl

/-- Settles O33. -/
theorem ctrlHoldsInterruptEnable : Obligations.CtrlHoldsInterruptEnable := by
  refine ⟨fun s v rest hturn => step_write hturn rfl, fun s rest hturn => ?_⟩
  have hvalue : regRead 0x38 s = if s.ctrl.ie then 0x00000001#32 else 0x00000000#32 := by
    change bit s.ctrl.ie = _
    cases s.ctrl.ie <;> rfl
  rw [step_regRead hturn rfl (by decide), hvalue]
  rfl

/-! ### The operand and result registers -/

theorem setLow_low (d : Double) (v : Word) : (setLow d v).extractLsb' 0 32 = v :=
  BitVec.extractLsb'_append_eq_right
theorem setLow_high (d : Double) (v : Word) : (setLow d v).extractLsb' 32 32 = d.extractLsb' 32 32 :=
  BitVec.extractLsb'_append_eq_left
theorem setHigh_low (d : Double) (v : Word) : (setHigh d v).extractLsb' 0 32 = d.extractLsb' 0 32 :=
  BitVec.extractLsb'_append_eq_right
theorem setHigh_high (d : Double) (v : Word) : (setHigh d v).extractLsb' 32 32 = v :=
  BitVec.extractLsb'_append_eq_left

/-- The writes of IARG and of FARG's halves are those of R78. -/
theorem step_dataWrite {s : State} {off : Nat} {v : Word} {rest : List Event}
    (hturn : hostNext s off (.write .w4 v) rest) (hoff : off = 0x50 ∨ off = 0x58 ∨ off = 0x5C) :
    step s = .next (dataWrite off v (takeTurn rest s)) := by
  obtain rfl | rfl | rfl := hoff <;> exact step_write hturn rfl

/-- Settles O34. -/
theorem operandRegisterWrites : Obligations.OperandRegisterWrites := by
  intro s off v rest hturn hoff
  rw [step_dataWrite hturn hoff, dataWrite]
  refine ⟨fun hbusy => ?_, fun hfree => ?_⟩
  · rw [busyGuard_busy (s := takeTurn rest s) hbusy]
    rfl
  · rw [busyGuard_free (s := takeTurn rest s) hfree]
    refine ⟨_, rfl, ?_⟩
    obtain rfl | rfl | rfl := hoff
    · exact ⟨rfl, rfl, rfl, rfl⟩
    · exact ⟨rfl, rfl, setLow_low s.farg v, setLow_high s.farg v⟩
    · exact ⟨rfl, rfl, setHigh_low s.farg v, setHigh_high s.farg v⟩

/-- Settles O35. -/
theorem dataRegisterReads : Obligations.DataRegisterReads := by
  intro s off v rest hturn hreg
  simp only [Prod.mk.injEq] at hreg
  obtain ⟨rfl, rfl⟩ | ⟨rfl, rfl⟩ | ⟨rfl, rfl⟩ | ⟨rfl, rfl⟩ | ⟨rfl, rfl⟩ | ⟨rfl, rfl⟩ | ⟨rfl, rfl⟩ := hreg <;>
    exact step_regRead hturn rfl (by decide)

/-- Settles O36. -/
theorem commandWrites : Obligations.CommandWrites := by
  intro s w rest hturn
  have hstep : step s = .next (cmdWrite w (takeTurn rest s)) := step_write hturn rfl
  rw [hstep, cmdWrite, busyGuard]
  rfl

end Sys2Proof.Machine
end

section
/-! SUPPORT. The completion of a pending command (R80, R84, R155): a step runs Exec of the decoded word, no command
touches the interface registers, a fair run completes it, and it commutes with the CRC stream. -/

namespace Sys2Proof.Machine

/-! ### What a command leaves alone -/

/-- Settles O23: an update has no field for what a command leaves alone. -/
theorem commandFrame : Obligations.CommandFrame := by
  intro i s t h
  obtain ⟨e, -, rfl⟩ := exec_next h
  exact ⟨rfl, rfl, rfl, rfl, rfl, rfl, rfl, rfl, rfl, rfl, rfl, rfl, e.apply_flag (f := .range)⟩

/-! ### The completion step -/

/-- An outcome with its next state, if it answers one, changed by `g`. -/
def mapNext (g : State → State) : Result → Result
  | .next t => .next (g t)
  | .fault f => .fault f
  | .refused r => .refused r

/-- The completion step of a word that decodes (R84). -/
theorem complete_of_decode {s : State} {i : Instr} (h : decode s.pend = .ok i) :
    complete s = mapNext finish (exec i s) := by
  unfold complete
  rw [h]
  rfl

/-- Settles O6. -/
theorem stepRunsPendingCommand : Obligations.StepRunsPendingCommand := by
  intro s rest i hturn hbusy hdecode
  rw [step_block hturn hbusy, complete_of_decode (s := takeTurn rest s) hdecode]
  rfl

/-- Settles O43. -/
theorem nopCompletes : Obligations.NopCompletes := by
  refine ⟨fun s => rfl, fun s rest hturn hbusy hpend => ?_⟩
  have hdecode : decode s.pend = .ok .nop := by
    rw [hpend]
    exact decodeInvertsEncode .nop rfl
  rw [step_block hturn hbusy, complete_of_decode (s := takeTurn rest s) hdecode]
  rfl

/-- What the completion step leaves: BUSY = 0, DONE = 1, and the rest of the agenda (R84). -/
theorem step_completes {s t : State} {rest : List Event} (hturn : blockNext s rest) (hbusy : s.status.busy = true)
    (h : step s = .next t) : t.agenda = rest ∧ t.status.busy = false ∧ t.status.done = true := by
  rw [step_block hturn hbusy] at h
  obtain ⟨i, u, -, hexec, rfl⟩ := complete_next.1 h
  obtain ⟨e, -, rfl⟩ := exec_next hexec
  exact ⟨rfl, rfl, rfl⟩

/-- Settles O7, by induction on the host accesses before the block's turn: each keeps the command pending. -/
theorem unstoppedRunCompletesPendingCommand : Obligations.UnstoppedRunCompletesPendingCommand := by
  intro s t hbusy hhost h
  generalize hagenda : s.agenda = accesses at hhost h
  induction accesses generalizing s with
  | nil =>
    obtain ⟨hrest, hidle, hdone⟩ := step_completes (.inr ⟨hagenda, rfl⟩) hbusy (run_one.1 h)
    exact ⟨hrest, ⟨by simp [hrest], hidle⟩, hdone⟩
  | cons access rest ih =>
    obtain ⟨u, hstep, hrun⟩ := run_succ_next.1 h
    obtain ⟨haccess, hlater⟩ := List.forall_mem_cons.1 hhost
    cases access with
    | block | reset => cases haccess
    | bus addr op =>
      obtain ⟨hpart, hrest⟩ := step_bus_pending hagenda hbusy hstep
      exact ih u ((congrArg CommandPart.busy hpart).trans hbusy) hrest hlater hrun

/-! ### The pending word -/

/-- A step that leaves the command pending keeps what the command reads and writes (R49, R83). -/
theorem step_pending {s t : State} (hbusy : s.status.busy = true) (hstill : t.status.busy = true)
    (h : step s = .next t) : t.commandPart = s.commandPart := by
  match hagenda : s.agenda with
  | [] =>
    obtain ⟨-, hidle, -⟩ := step_completes (.inr ⟨hagenda, rfl⟩) hbusy h
    simp [hidle] at hstill
  | .block :: rest =>
    obtain ⟨-, hidle, -⟩ := step_completes (.inl hagenda) hbusy h
    simp [hidle] at hstill
  | .reset :: rest =>
    rw [step_reset hagenda] at h
    cases h
    cases hstill
  | .bus addr op :: rest => exact (step_bus_pending hagenda hbusy h).1

/-- Settles O11: BUSY rises only with a legal word in PEND, and PEND stays while BUSY does. -/
theorem stepKeepsPendingLegal : Obligations.StepKeepsPendingLegal := by
  intro s t hlegal h hstill
  cases hbusy : s.status.busy with
  | false =>
    obtain ⟨w, rest, -, hw, rfl⟩ := (busyChangesOnly s t h).1 hbusy hstill
    exact hw
  | true =>
    have hpend : t.pend = s.pend := congrArg CommandPart.pend (step_pending hbusy hstill h)
    rw [hpend]
    exact hlegal hbusy

/-! ### The CRC stream beside a completion -/

/-- A meaning behind a read faults as another one behind the same read, if neither faults itself. -/
theorem withRead_fault_congr {α : Type} {r r' : Except Fault α} {k k' : α → State} {f : Fault} (hr : r' = r)
    (h : withRead r (fun a => .next (k a)) = .fault f) : withRead r' (fun a => .next (k' a)) = .fault f := by
  obtain herr | ⟨a, -, hk⟩ := withRead_fault.1 h
  · exact withRead_fault.2 (.inl (hr.trans herr))
  · cases hk

/-- A command that faults does so, on the same byte, from every state with the same inputs (R34). -/
theorem exec_fault_congr {i : Instr} {s s' : State} {f : Fault} (hs : SameInputs s s') (h : exec i s = .fault f) :
    exec i s' = .fault f := by
  cases i with
  | nop | sethdr | setseq imm8 => cases h
  | validate => exact withRead_fault_congr (congrArg Memory.classify hs.pkt) h
  | crcpkt | sealPkt => exact withRead_fault_congr (congrArg Memory.packetCrc hs.pkt) h
  | cvtt a =>
    rw [exec, execCvtt] at h ⊢
    split at h
    · rw [if_pos ‹_›]
      exact withRead_fault_congr (tempIn_congr hs a) h
    · cases h
  | cvtq a =>
    rw [exec, execCvtq] at h ⊢
    split at h
    · rw [if_pos ‹_›]
      exact withRead_fault_congr (qIn_congr hs a) h
    · cases h
  | enct a =>
    rw [exec, execEnct] at h
    split at h <;> cases h
  | encq a =>
    rw [exec, execEncq] at h
    split at h <;> cases h

/-- The host's turn with a write of CRC_DATA (R93). -/
def streamTurn (n : Width) (v : Word) (rest : List Event) (s : State) : State := crcDataWrite n v (takeTurn rest s)

/-- No command reads or writes what a turn of the CRC stream changes (R80). -/
theorem exec_streamTurn (i : Instr) (n : Width) (v : Word) (rest : List Event) (s : State) :
    exec i (streamTurn n v rest s) = mapNext (streamTurn n v rest) (exec i s) := by
  have hs : SameInputs s (streamTurn n v rest s) := ⟨rfl, rfl, rfl⟩
  cases h : exec i s with
  | next t =>
    obtain ⟨e, -, he⟩ := exec_applies_update h
    have ht : e.apply s = t := Host.Outcome.next.inj ((he s (.refl s)).symm.trans h)
    rw [he _ hs, ← ht]
    rfl
  | fault f => exact exec_fault_congr hs h
  | refused r => exact exec_refused.2 (exec_refused.1 h)

/-- So it may come before a completion step or after it (R155). -/
theorem complete_streamTurn (n : Width) (v : Word) (rest : List Event) (s : State) :
    complete (streamTurn n v rest s) = mapNext (streamTurn n v rest) (complete s) := by
  cases h : decode s.pend with
  | error e =>
    have hrefused {u : State} (hu : u.pend = s.pend) : complete u = .refused .illegalPending :=
      complete_refused.2 (.inl ⟨e, hu ▸ h, rfl⟩)
    rw [hrefused rfl, hrefused (u := streamTurn n v rest s) rfl]
    rfl
  | ok i =>
    rw [complete_of_decode h, complete_of_decode (s := streamTurn n v rest s) h, exec_streamTurn]
    cases exec i s <;> rfl

/-- A permitted write of CRC_DATA, at any of its offsets (R72, R93). -/
theorem step_crcData {s : State} {off : Nat} {n : Width} {v : Word} {rest : List Event} (hlo : 0x44 ≤ off)
    (hhi : off < 0x48) (hacc : accOK off n .write = true)
    (hturn : s.agenda = .bus (Config.base + off) (.write n v) :: rest) :
    step s = .next (streamTurn n v rest s) := by
  rw [step_write ⟨hturn, hhi.trans (by decide)⟩ hacc, permittedWrite,
    if_neg (by omega), if_neg (by omega), if_neg (by omega), if_neg (by omega), if_neg (by omega), if_pos ⟨hlo, hhi⟩]
  rfl

/-- A run goes as its first step does. -/
theorem run_succ_of_next {M : Host.Core} {k : Nat} {s u : M.State} (h : M.step s = .next u) :
    M.run (k + 1) s = M.run k u := by
  rw [Host.Core.run, h]

theorem run_succ_of_fault {M : Host.Core} {k : Nat} {s : M.State} {f : M.Fault} (h : M.step s = .fault f) :
    M.run (k + 1) s = .fault f := by
  rw [Host.Core.run, h]

theorem run_succ_of_refused {M : Host.Core} {k : Nat} {s : M.State} {r : M.Refusal} (h : M.step s = .refused r) :
    M.run (k + 1) s = .refused r := by
  rw [Host.Core.run, h]

/-- A run of one step is that step. -/
theorem run_one_eq (s : State) : Host.Core.run Sys2Proof.core 1 s = step s := by
  cases h : step s with
  | next u => exact run_succ_of_next (M := Sys2Proof.core) h
  | fault f => exact run_succ_of_fault (M := Sys2Proof.core) h
  | refused r => exact run_succ_of_refused (M := Sys2Proof.core) h

/-- A run of two steps of which the first is known. -/
theorem run_two_of_next {s u : State} (h : step s = .next u) : Host.Core.run Sys2Proof.core 2 s = step u :=
  (run_succ_of_next (M := Sys2Proof.core) h).trans (run_one_eq u)

/-- A run of two steps of which the second always does `g`. -/
theorem run_two_eq {s : State} {g : State → State} (h : ∀ t, step s = .next t → step t = .next (g t)) :
    Host.Core.run Sys2Proof.core 2 s = mapNext g (step s) := by
  cases hstep : step s with
  | next t => exact (run_two_of_next hstep).trans (h t hstep)
  | fault f => exact run_succ_of_fault (M := Sys2Proof.core) hstep
  | refused r => exact run_succ_of_refused (M := Sys2Proof.core) hstep

/-- The stream's turn and then the block's are the completion step of the state the write leaves. -/
theorem run_crcData_block {s : State} {off : Nat} {n : Width} {v : Word} {rest : List Event} (hlo : 0x44 ≤ off)
    (hhi : off < 0x48) (hacc : accOK off n .write = true) (hbusy : s.status.busy = true)
    (hturn : s.agenda = .bus (Config.base + off) (.write n v) :: .block :: rest) :
    Host.Core.run Sys2Proof.core 2 s = complete (streamTurn n v rest s) :=
  (run_two_of_next (step_crcData hlo hhi hacc hturn)).trans (step_block (.inl rfl) hbusy)

/-- The block's turn and then the stream's are the completion step, and then the write on its next state. -/
theorem run_block_crcData {s : State} {off : Nat} {n : Width} {v : Word} {rest : List Event} (hlo : 0x44 ≤ off)
    (hhi : off < 0x48) (hacc : accOK off n .write = true) (hbusy : s.status.busy = true)
    (hturn : s.agenda = .block :: .bus (Config.base + off) (.write n v) :: rest) :
    Host.Core.run Sys2Proof.core 2 s
      = mapNext (streamTurn n v rest) (complete (takeTurn (.bus (Config.base + off) (.write n v) :: rest) s)) := by
  rw [← step_block (.inl hturn) hbusy]
  exact run_two_eq fun t ht => step_crcData hlo hhi hacc (step_completes (.inl hturn) hbusy ht).1

/-- Settles O9: both orders are the completion step, with a turn of the stream before it or after it. -/
theorem crcStreamCommutesWithCompletion : Obligations.CrcStreamCommutesWithCompletion := by
  intro s rest off n v hlo hhi hacc hbusy
  have hcommute := complete_streamTurn n v rest (takeTurn (.bus (Config.base + off) (.write n v) :: rest) s)
  have hfirst := run_crcData_block (s := { s with agenda := .bus (Config.base + off) (.write n v) :: .block :: rest })
    hlo hhi hacc hbusy rfl
  have hlast := run_block_crcData (s := { s with agenda := .block :: .bus (Config.base + off) (.write n v) :: rest })
    hlo hhi hacc hbusy rfl
  exact hfirst.trans (hcommute.trans hlast.symm)

end Sys2Proof.Machine
end

section
/-! SUPPORT. The CRC as a linear machine over GF(2) (R88 to R91, R99, R100): an iteration is linear and loses nothing,
eight of them are one table lookup, and four bytes fed little-endian are thirty-two iterations of one word. -/

namespace Sys2Proof.Machine

/-! ### The iterations -/

/-- An iteration is linear: the polynomial is added once for each of the two low bits, and twice is not at all. -/
theorem crcShift_xor (a b : Word) : crcShift (a ^^^ b) = crcShift a ^^^ crcShift b := by
  unfold crcShift
  rw [BitVec.getLsbD_xor, BitVec.ushiftRight_xor_distrib]
  cases a.getLsbD 0 <;> cases b.getLsbD 0
  · rfl
  · exact BitVec.xor_assoc ..
  · change a >>> 1 ^^^ b >>> 1 ^^^ Config.poly = a >>> 1 ^^^ Config.poly ^^^ b >>> 1
    ac_rfl
  · change a >>> 1 ^^^ b >>> 1 = a >>> 1 ^^^ Config.poly ^^^ (b >>> 1 ^^^ Config.poly)
    calc a >>> 1 ^^^ b >>> 1
        = a >>> 1 ^^^ b >>> 1 ^^^ (Config.poly ^^^ Config.poly) := by rw [BitVec.xor_self, BitVec.xor_zero]
      _ = a >>> 1 ^^^ Config.poly ^^^ (b >>> 1 ^^^ Config.poly) := by ac_rfl

/-- The bit an iteration shifts out comes back as bit 31, because the polynomial's bit 31 is 1. -/
theorem crcShift_getLsbD_31 (c : Word) : (crcShift c).getLsbD 31 = c.getLsbD 0 := by
  unfold crcShift
  cases c.getLsbD 0 <;> simp [Config.poly]

theorem crcShift_eq_zero {c : Word} (h : crcShift c = 0#32) : c = 0#32 := by
  have hlow : c.getLsbD 0 = false := by rw [← crcShift_getLsbD_31, h]; rfl
  have hshift : c >>> 1 = 0#32 := by rwa [crcShift, hlow] at h
  refine BitVec.eq_of_getLsbD_eq fun i _ => ?_
  cases i with
  | zero => exact hlow
  | succ i =>
    have hbit : (c >>> 1).getLsbD i = false := by rw [hshift, BitVec.getLsbD_zero]
    rw [BitVec.getLsbD_ushiftRight, Nat.add_comm] at hbit
    exact hbit.trans BitVec.getLsbD_zero.symm

theorem crcShifts_xor (n : Nat) (a b : Word) : crcShifts n (a ^^^ b) = crcShifts n a ^^^ crcShifts n b := by
  induction n generalizing a b with
  | zero => rfl
  | succ n ih => rw [crcShifts, crcShift_xor, ih, crcShifts, crcShifts]

theorem crcShifts_add (m n : Nat) (c : Word) : crcShifts (m + n) c = crcShifts n (crcShifts m c) := by
  induction m generalizing c with
  | zero => rw [Nat.zero_add, crcShifts]
  | succ m ih => rw [Nat.succ_add, crcShifts, ih, crcShifts]

theorem crcShifts_eq_zero {n : Nat} {c : Word} (h : crcShifts n c = 0#32) : c = 0#32 := by
  induction n generalizing c with
  | zero => exact h
  | succ n ih => exact crcShift_eq_zero (ih h)

/-- No two registers meet: the difference would be lost. -/
theorem crcShifts_injective (n : Nat) : Function.Injective (crcShifts n) := by
  intro a b h
  have hdiff : crcShifts n (a ^^^ b) = 0#32 := by rw [crcShifts_xor, h, BitVec.xor_self]
  exact BitVec.xor_eq_zero_iff.1 (crcShifts_eq_zero hdiff)

/-- While the bits shifted out are 0, the iterations are plain shifts (R91). -/
theorem crcShifts_of_low_zero {n : Nat} {c : Word} (h : ∀ i < n, c.getLsbD i = false) : crcShifts n c = c >>> n := by
  induction n generalizing c with
  | zero => rfl
  | succ n ih =>
    have hfirst : crcShift c = c >>> 1 := by rw [crcShift, h 0 n.succ_pos, if_neg Bool.false_ne_true]
    have hrest : ∀ i < n, (c >>> 1).getLsbD i = false := fun i hi => by
      rw [BitVec.getLsbD_ushiftRight]
      exact h (1 + i) (by omega)
    rw [crcShifts, hfirst, ih hrest, ← BitVec.shiftRight_add, Nat.add_comm]

/-! ### The table -/

/-- A word is its low byte and the rest. -/
theorem lowByte_xor_rest (v : Word) : v = (v.setWidth 8).setWidth 32 ^^^ (v >>> 8) <<< 8 := by
  refine BitVec.eq_of_getLsbD_eq fun i hi => ?_
  by_cases h : i < 8
  · simp [h, hi]
  · have hi' : 8 + (i - 8) = i := by omega
    simp [h, hi', hi]

theorem setWidth_ushiftRight_eight (b : Byte) : b.setWidth 32 >>> 8 = 0#32 := by
  ext i hi
  simp

/-- Eight iterations look the low byte up in the table and shift the rest down (R89, R91). -/
theorem crcShifts_eight (v : Word) : crcShifts 8 v = crcTable (v.setWidth 8) ^^^ (v >>> 8) := by
  have hhigh : crcShifts 8 ((v >>> 8) <<< 8) = v >>> 8 := by
    rw [crcShifts_of_low_zero (by simp +contextual)]
    refine BitVec.eq_of_getLsbD_eq fun i _ => ?_
    by_cases h : 8 + i < 32
    · simp [h]
    · have hbeyond : v.getLsbD (8 + i) = false := BitVec.getLsbD_of_ge _ _ (by omega)
      simp [h, hbeyond]
  calc crcShifts 8 v
      = crcShifts 8 ((v.setWidth 8).setWidth 32) ^^^ crcShifts 8 ((v >>> 8) <<< 8) := by
        rw [← crcShifts_xor, ← lowByte_xor_rest]
    _ = crcTable (v.setWidth 8) ^^^ (v >>> 8) := by rw [hhigh, crcTable, upd, BitVec.zero_xor]

theorem updT_eq_upd (c : Word) (b : Byte) : updT c b = upd c b := by
  rw [upd, crcShifts_eight, BitVec.ushiftRight_xor_distrib, setWidth_ushiftRight_eight, BitVec.xor_zero, updT]

/-! ### Sequences -/

theorem crcRun_eq_foldl (c : Word) (bs : List Byte) : crcRun c bs = bs.foldl upd c := by
  induction bs generalizing c with
  | nil => rfl
  | cons b bs ih => exact ih (upd c b)

theorem crcRun_append (c : Word) (as bs : List Byte) : crcRun c (as ++ bs) = crcRun (crcRun c as) bs := by
  simp only [crcRun_eq_foldl, List.foldl_append]

/-- Settles O40: both updates are the same function, so their folds are. -/
theorem tableAgreesWithBitwise : Obligations.TableAgreesWithBitwise := by
  refine ⟨updT_eq_upd, fun data => ?_⟩
  have htable : updT = upd := funext₂ updT_eq_upd
  rw [htable, ← crcRun_eq_foldl]
  rfl

theorem upd_left_injective (b : Byte) : Function.Injective (upd · b) := fun _ _ h =>
  (BitVec.xor_left_inj _).1 (crcShifts_injective 8 h)

theorem upd_right_injective (c : Word) : Function.Injective (upd c) := fun x y h => by
  have hword : x.setWidth 32 = y.setWidth 32 := (BitVec.xor_right_inj _).1 (crcShifts_injective 8 h)
  simpa using congrArg (BitVec.setWidth 8) hword

/-- Fed the same bytes, different registers stay different. -/
theorem crcRun_left_injective (bs : List Byte) : Function.Injective (crcRun · bs) := by
  induction bs with
  | nil => exact fun _ _ h => h
  | cons b bs ih => exact fun _ _ h => upd_left_injective b (ih h)

/-- A sequence with one byte changed leaves a different register: the change is not lost where it enters, and never
after (R99). -/
theorem crcRun_set_ne {data : List Byte} {i : Nat} {x : Byte} (hi : i < data.length) (hx : x ≠ data[i]) (c : Word) :
    crcRun c (data.set i x) ≠ crcRun c data := by
  induction data generalizing i c with
  | nil => simp at hi
  | cons b bs ih =>
    cases i with
    | zero => exact fun h => hx (upd_right_injective c (crcRun_left_injective bs h))
    | succ i => exact ih (Nat.lt_of_succ_lt_succ hi) hx (upd c b)

theorem crc32_set_ne {data : List Byte} {i : Nat} {x : Byte} (hi : i < data.length) (hx : x ≠ data[i]) :
    crc32 (data.set i x) ≠ crc32 data := fun h =>
  crcRun_set_ne hi hx Config.crcInit ((BitVec.xor_left_inj _).1 h)

theorem flip_ne (b : Byte) {j : Nat} (hj : j < 8) : b ^^^ (1#8 <<< j) ≠ b := fun h => by
  have hbit : (b ^^^ (1#8 <<< j)).getLsbD j = b.getLsbD j := by rw [h]
  simp [hj] at hbit

/-! ### The residue -/

/-- The register after n little-endian bytes of v, where v has no others: the 8n iterations of the word (R100). -/
theorem crcRun_leBytes {n : Nat} {v : Word} (hv : v >>> (8 * n) = 0#32) (c : Word) :
    crcRun c (leBytes n v) = crcShifts (8 * n) (c ^^^ v) := by
  induction n generalizing c v with
  | zero =>
    have hzero : v = 0#32 := hv
    rw [hzero, BitVec.xor_zero]
    rfl
  | succ n ih =>
    have hrest : v >>> 8 >>> (8 * n) = 0#32 := by rw [← BitVec.shiftRight_add, Nat.add_comm]; exact hv
    have hbyte : upd c (v.setWidth 8) ^^^ (v >>> 8) = crcShifts 8 (c ^^^ v) := by
      rw [upd, crcShifts_xor, crcShifts_xor, crcShifts_eight v, crcTable, upd, BitVec.zero_xor, BitVec.xor_assoc]
    rw [leBytes, crcRun, ih hrest, hbyte, ← crcShifts_add, Nat.mul_succ, Nat.add_comm]

/-- A message and four bytes: thirty-two iterations of the register with the four bytes added in. -/
theorem crc32_append_lanes (data : List Byte) (v : Word) :
    crc32 (data ++ lanes .w4 v) = crcShifts 32 (crcRun Config.crcInit data ^^^ v) ^^^ Config.crcXorOut := by
  rw [crc32, crcRun_append, ← leBytes_eq_lanes]
  exact congrArg (· ^^^ Config.crcXorOut) (crcRun_leBytes (n := 4) (BitVec.ushiftRight_eq_zero (Nat.le_refl 32)) _)

/-- The residue is what thirty-two iterations make of the final XOR. -/
theorem crcShifts_xorOut : crcShifts 32 Config.crcXorOut ^^^ Config.crcXorOut = 0x2144DF1C#32 := by decide +kernel

/-- The residue test and the comparison with the checksum agree on every message (R100). -/
theorem crc32_append_lanes_eq_residue {data : List Byte} {v : Word} :
    crc32 (data ++ lanes .w4 v) = 0x2144DF1C#32 ↔ v = crc32 data := by
  rw [crc32_append_lanes, ← crcShifts_xorOut, BitVec.xor_left_inj, (crcShifts_injective 32).eq_iff,
    ← BitVec.xor_right_inj (crcRun Config.crcInit data) (x := v), crc32, ← BitVec.xor_assoc, BitVec.xor_self,
    BitVec.zero_xor]

/-- Settles O42: both halves are the residue test against the message's own checksum. -/
theorem residueIdentity : Obligations.ResidueIdentity :=
  ⟨fun _ => crc32_append_lanes_eq_residue.2 rfl, fun _ _ _ => crc32_append_lanes_eq_residue⟩

end Sys2Proof.Machine
end

section
/-! SUPPORT. The stream port (R92 to R95): each access is one step, and a run of writes folds their lanes. -/

namespace Sys2Proof.Machine

theorem crcRun_lanes (c : Word) (n : Width) (v : Word) :
    crcRun c (lanes n v) = (List.range n.bytes).foldl (fun c k => upd c (lane v k)) c := by
  rw [crcRun_eq_foldl, lanes, List.foldl_map]

@[simp] theorem streamTurn_agenda (n : Width) (v : Word) (rest : List Event) (s : State) :
    (streamTurn n v rest s).agenda = rest := rfl

@[simp] theorem streamTurn_crcAcc (n : Width) (v : Word) (rest : List Event) (s : State) :
    (streamTurn n v rest s).crcAcc = crcRun s.crcAcc (lanes n v) := by
  rw [← leBytes_eq_lanes]
  rfl

/-- Settles O38. -/
theorem crcStreamPort : Obligations.CrcStreamPort := by
  refine fun s rest => ⟨fun v hturn => step_write hturn rfl, fun off n v hturn hlo hhi hacc => ?_,
    fun hturn => step_regRead hturn rfl (by decide), fun hturn => step_regRead hturn rfl (by decide)⟩
  rw [step_crcData hlo hhi hacc hturn.1, ← crcRun_lanes, ← leBytes_eq_lanes]
  rfl

/-- A permitted write of CRC_DATA (R37, R93). -/
def streamWrite (w : Nat × Width × Word) : Prop := 0x44 ≤ w.1 ∧ w.1 < 0x48 ∧ accOK w.1 w.2.1 .write = true

/-- A run of permitted writes feeds all their lanes to the register, in order. -/
theorem run_stream {ws : List (Nat × Width × Word)} {s : State} (hws : ∀ w ∈ ws, streamWrite w)
    (hagenda : s.agenda = ws.map (fun w => .bus (Config.base + w.1) (.write w.2.1 w.2.2))) :
    ∃ t, Host.Core.run Sys2Proof.core ws.length s = .next t
      ∧ t.crcAcc = crcRun s.crcAcc (ws.flatMap fun w => lanes w.2.1 w.2.2) := by
  induction ws generalizing s with
  | nil => exact ⟨s, rfl, rfl⟩
  | cons w ws ih =>
    obtain ⟨off, n, v⟩ := w
    obtain ⟨⟨hlo, hhi, hacc⟩, hlater⟩ := List.forall_mem_cons.1 hws
    have hstep := step_crcData hlo hhi hacc hagenda
    obtain ⟨t, hrun, hacc'⟩ := ih hlater (streamTurn_agenda n v _ s)
    refine ⟨t, (run_succ_of_next (M := Sys2Proof.core) hstep).trans hrun, ?_⟩
    rw [hacc', streamTurn_crcAcc, List.flatMap_cons, crcRun_append]

/-- Settles O39, by `run_stream` from the initial register. -/
theorem streamAgreesWithOneShot : Obligations.StreamAgreesWithOneShot := by
  refine ⟨by decide, fun s ws hinit hws hagenda => ?_⟩
  obtain ⟨t, hrun, hacc⟩ := run_stream hws hagenda
  refine ⟨t, hrun, ?_⟩
  rw [hinit] at hacc
  exact congrArg (· ^^^ 0xFFFFFFFF#32) hacc

end Sys2Proof.Machine
end

section
/-! SUPPORT. The packet checksum (R96, R97, R99): CRCPKT and SEAL read bytes 0 to 35, and the three checks tell a
sealed packet from one with a bit flipped. -/

namespace Sys2Proof.Machine

/-! ### What the checks read -/

/-- A region read sees only the bytes of its region. -/
theorem readBytes_congr {m m' : Memory} {off n : Nat} (h : ∀ k < n, m'.byte? (off + k) = m.byte? (off + k)) :
    m'.readBytes off n = m.readBytes off n := by
  cases hread : m.readBytes off n with
  | ok bs =>
    obtain ⟨hlen, hbytes⟩ := Memory.readBytes_ok.1 hread
    exact Memory.readBytes_ok.2 ⟨hlen, fun k hk => (h k hk).trans (hbytes k hk)⟩
  | error f =>
    obtain ⟨k, hk, hnone, hlower, rfl⟩ := Memory.readBytes_error.1 hread
    exact Memory.readBytes_error.2
      ⟨k, hk, (h k hk).trans hnone, fun j hj => by rw [h j (hj.trans hk)]; exact hlower j hj, rfl⟩

theorem hdrOK_congr {m m' : Memory} (h : ∀ a < 4, m'.byte? a = m.byte? a) : m'.hdrOK = m.hdrOK := by
  have hread : m'.readBytes 0 2 = m.readBytes 0 2 := readBytes_congr fun k hk => h (0 + k) (by omega)
  unfold Memory.hdrOK Memory.header Memory.le16
  rw [hread]

theorem seqOK_congr {m m' : Memory} (h : ∀ a < 4, m'.byte? a = m.byte? a) : m'.seqOK = m.seqOK := by
  unfold Memory.seqOK Memory.sequencer Memory.complementSequencer Memory.readByte
  rw [h 2 (by decide), h 3 (by decide)]

theorem crc32Field_congr {m m' : Memory} (h : ∀ a, 36 ≤ a → m'.byte? a = m.byte? a) :
    m'.crc32Field = m.crc32Field := by
  have hread : m'.readBytes 36 4 = m.readBytes 36 4 := readBytes_congr fun k _ => h (36 + k) (by omega)
  unfold Memory.crc32Field Memory.le32
  rw [hread]

/-- The CRC stage answers the checksum of the 36 bytes and whether the field holds it (R103). -/
theorem crcStage_ok {m : Memory} {w : Word} {good : Bool} :
    m.crcStage = .ok (w, good) ↔
      m.packetCrc = .ok w ∧ ∃ field, m.crc32Field = .ok field ∧ good = (field == w) := by
  unfold Memory.crcStage
  rcases m.packetCrc with f | c
  · simp
  · rcases m.crc32Field with f | field
    · simp
    · simp only [Except.ok.injEq, Prod.mk.injEq, exists_eq_left']
      exact and_congr_right fun h => by rw [h, eq_comm]

/-! ### Error detection -/

theorem byte?_put_ne {m : Memory} {i a : Nat} {x : Byte} (h : a ≠ i) : (m.put i x).byte? a = m.byte? a := by
  rw [Memory.byte?_put, if_neg h]

/-- A write inside a region that has been read changes that byte of what is read. -/
theorem readBytes_put {m : Memory} {n i : Nat} {x : Byte} {bs : List Byte} (hi : i < n)
    (h : m.readBytes 0 n = .ok bs) : (m.put i x).readBytes 0 n = .ok (bs.set i x) := by
  obtain ⟨hlen, hbytes⟩ := Memory.readBytes_ok.1 h
  refine Memory.readBytes_ok.2 ⟨by simpa using hlen, fun k hk => ?_⟩
  rw [Memory.byte?_put, List.getElem?_set, Nat.zero_add]
  by_cases hki : k = i
  · subst hki
    simp [hlen, hi]
  · rw [if_neg hki, if_neg (Ne.symm hki), ← hbytes k hk, Nat.zero_add]

/-- The checks give Ok where each passes, the crc32 field holding the checksum of the 36 bytes (R104). -/
theorem classify_eq_ok {m : Memory} {c : Option Word} (h : m.classify = .ok (.ok, c)) :
    m.hdrOK = .ok true ∧ m.seqOK = .ok true
      ∧ ∃ bs, m.readBytes 0 36 = .ok bs ∧ m.crc32Field = .ok (crc32 bs) := by
  obtain ⟨-, hr, -⟩ | ⟨-, -, hr, -⟩ | ⟨hhdr, hseq, w, good, hstage, -, hr⟩ := Memory.classify_ok.1 h
  · cases hr
  · cases hr
  · obtain ⟨hcrc, field, hfield, hgood⟩ := crcStage_ok.1 hstage
    obtain ⟨bs, hread, rfl⟩ := Memory.packetCrc_ok.1 hcrc
    have heq : field = crc32 bs := by
      by_contra hne
      simp [hgood, hne] at hr
    exact ⟨hhdr, hseq, bs, hread, heq ▸ hfield⟩

/-- They give BadCrc where the first two pass and the field holds another word. -/
theorem classify_eq_badCrc {m : Memory} {bs : List Byte} {field : Word} (hhdr : m.hdrOK = .ok true)
    (hseq : m.seqOK = .ok true) (hread : m.readBytes 0 36 = .ok bs) (hfield : m.crc32Field = .ok field)
    (hne : field ≠ crc32 bs) : m.classify = .ok (.badCrc, some (crc32 bs)) :=
  Memory.classify_ok.2 (.inr (.inr ⟨hhdr, hseq, crc32 bs, false,
    crcStage_ok.2 ⟨Memory.packetCrc_ok.2 ⟨bs, hread, rfl⟩, field, hfield, (beq_false_of_ne hne).symm⟩, rfl, rfl⟩))

/-- Settles O41: the header and the sequencer still pass, the crc32 field is the same, the checksum is not. -/
theorem singleBitErrorIsDetected : Obligations.SingleBitErrorIsDetected := by
  refine ⟨fun data i j hi hj => crc32_set_ne hi (flip_ne data[i] hj), fun m c i j b h hlo hhi hj hb => ?_⟩
  obtain ⟨hhdr, hseq, bs, hread, hfield⟩ := classify_eq_ok h
  obtain ⟨hlen, hbytes⟩ := Memory.readBytes_ok.1 hread
  have hi : i < bs.length := by omega
  have hbyte : bs[i] = b := by
    have hbi := (hbytes i (by omega)).symm
    rw [Nat.zero_add, hb, List.getElem?_eq_getElem hi] at hbi
    exact Option.some.inj hbi
  refine ⟨_, classify_eq_badCrc ((hdrOK_congr fun a ha => byte?_put_ne (by omega)).trans hhdr)
    ((seqOK_congr fun a ha => byte?_put_ne (by omega)).trans hseq) (readBytes_put (by omega) hread)
    ((crc32Field_congr fun a ha => byte?_put_ne (by omega)).trans hfield) (crc32_set_ne hi ?_).symm⟩
  rw [hbyte]
  exact flip_ne b hj

/-! ### CRCPKT and SEAL -/

theorem packetCrc_of_holds {m : Memory} {bs : List Byte} (hlen : bs.length = 36) (h : holds m 0 bs) :
    m.packetCrc = .ok (crc32 bs) :=
  Memory.packetCrc_ok.2 ⟨bs, Memory.readBytes_ok.2 ⟨hlen, by rwa [← hlen]⟩, rfl⟩

/-- A command that begins with the packet checksum faults on an unwritten byte of the 36 (R96, R97). -/
theorem withRead_packetCrc_missing {m : Memory} (h : missing m 0 36) (k : Word → Result) :
    faultsOn (withRead m.packetCrc k) m 0 36 := by
  obtain ⟨i, hi, hnone, hread⟩ := readBytes_missing h
  refine ⟨i, hi, hnone, ?_⟩
  rw [Memory.packetCrc_error.2 hread, withRead_error]

/-- Settles O44: the 36 bytes decide the read, and the read decides the command. -/
theorem crcpktComputesPacketCrc : Obligations.CrcpktComputesPacketCrc := by
  refine fun s => ⟨fun bs hlen hbs => ?_, fun h => withRead_packetCrc_missing h _⟩
  rw [exec, execCrcpkt, packetCrc_of_holds hlen hbs, withRead_ok]

/-- The little-endian value of the n low bytes (R7, R39). -/
theorem leValue_leBytes {w : Nat} (n : Nat) (v : BitVec w) : leValue (leBytes n v) = v.toNat % 2 ^ (8 * n) := by
  induction n generalizing v with
  | zero => rw [leBytes, leValue, Nat.mul_zero, pow_zero, Nat.mod_one]
  | succ n ih =>
    rw [leBytes, leValue, ih, BitVec.toNat_setWidth, BitVec.toNat_ushiftRight, Nat.shiftRight_eq_div_pow, Nat.mul_succ,
      Nat.add_comm (8 * n), pow_add, Nat.mod_mul]
    rfl

/-- A word stored little-endian in the crc32 field is the field (R44, R97). -/
theorem crc32Field_of_stored {m m' : Memory} {c : Word} (h : stored m m' 36 (leBytes 4 c)) :
    m'.crc32Field = .ok c := by
  have hread : m'.readBytes 36 4 = .ok (leBytes 4 c) := by
    refine Memory.readBytes_ok.2 ⟨leBytes_length 4 c, fun k hk => ?_⟩
    rw [h, if_pos ⟨Nat.le_add_right 36 k, by rw [leBytes_length]; omega⟩, Nat.add_sub_cancel_left]
  refine Memory.le32_ok.2 ⟨leBytes 4 c, hread, ?_⟩
  rw [leValue_leBytes, Nat.mod_eq_of_lt c.isLt, BitVec.ofNat_toNat, BitVec.setWidth_eq]

/-- Every byte of a region that reads is written. -/
theorem byte?_ne_none_of_readBytes {m : Memory} {off n a : Nat} {bs : List Byte} (h : m.readBytes off n = .ok bs)
    (hlo : off ≤ a) (hhi : a < off + n) : m.byte? a ≠ none := by
  obtain ⟨hlen, hbytes⟩ := Memory.readBytes_ok.1 h
  have hbyte := hbytes (a - off) (by omega)
  rw [Nat.add_sub_cancel' hlo, List.getElem?_eq_getElem (by omega)] at hbyte
  simp [hbyte]

/-- On a packet whose crc32 field holds its checksum the checks answer, with something else than BadCrc (R97, R103). -/
theorem classify_of_field_eq {m : Memory} {c : Word} (hcrc : m.packetCrc = .ok c) (hfield : m.crc32Field = .ok c) :
    ∃ r c', m.classify = .ok (r, c') ∧ r ≠ .badCrc := by
  cases h : m.classify with
  | error f =>
    obtain ⟨off, hoff, -, hnone⟩ := classify_namesUnwritten h
    obtain ⟨bs, hbody, -⟩ := Memory.packetCrc_ok.1 hcrc
    obtain ⟨cs, htail, -⟩ := Memory.le32_ok.1 hfield
    have hoff' : off < 40 := hoff
    rcases Nat.lt_or_ge off 36 with hlt | hge
    · exact absurd hnone (byte?_ne_none_of_readBytes hbody (Nat.zero_le off) (by omega))
    · exact absurd hnone (byte?_ne_none_of_readBytes htail hge (by omega))
  | ok p =>
    obtain ⟨r, c'⟩ := p
    refine ⟨r, c', rfl, ?_⟩
    obtain ⟨-, rfl, -⟩ | ⟨-, -, rfl, -⟩ | ⟨-, -, w, good, hstage, -, rfl⟩ := Memory.classify_ok.1 h
    · decide
    · decide
    · obtain ⟨hw, field, hf, hgood⟩ := crcStage_ok.1 hstage
      cases hcrc.symm.trans hw
      cases hfield.symm.trans hf
      simp [hgood]

/-- VALIDATE completes where the checks answer, with their verdict (R104). -/
theorem exec_validate_of_classify {s : State} {r : VRes} {c : Option Word} (h : s.pkt.classify = .ok (r, c)) :
    ∃ u, exec .validate s = .next u ∧ u.status.vres = r :=
  ⟨_, withRead_next.2 ⟨(r, c), h, rfl⟩, rfl⟩

/-- Settles O45: the 36 bytes are not stored to, so the sealed field holds the checksum of the sealed packet. -/
theorem sealWritesPacketCrc : Obligations.SealWritesPacketCrc := by
  refine fun s => ⟨fun bs hlen hbs => ?_, fun h => withRead_packetCrc_missing h _⟩
  rw [exec, execSeal, packetCrc_of_holds hlen hbs, withRead_ok]
  have hstored := pktPut_stored 36 (leBytes 4 (crc32 bs)) s
  have hcrc : (pktPut 36 (leBytes 4 (crc32 bs)) s).pkt.packetCrc = .ok (crc32 bs) :=
    packetCrc_of_holds hlen fun k hk => by
      rw [hstored, if_neg (by omega)]
      exact hbs k hk
  obtain ⟨r, c, hclass, hr⟩ := classify_of_field_eq hcrc (crc32Field_of_stored hstored)
  refine ⟨{ pktPut 36 (leBytes 4 (crc32 bs)) s with pcrc := crc32 bs }, rfl, ?_, rfl, ?_⟩
  · rw [← leBytes_eq_lanes]
    exact hstored
  · obtain ⟨u, hexec, hu⟩ := exec_validate_of_classify
      (s := { pktPut 36 (leBytes 4 (crc32 bs)) s with pcrc := crc32 bs }) hclass
    exact ⟨u, hexec, hu ▸ hr⟩

end Sys2Proof.Machine
end

section
/-! SUPPORT. The verdict and the buffer (R101 to R109): what each check answers and where it faults, that VALIDATE
reports the first that fails, and the kinds of change a step makes to VRES, VVALID and PKTBUF together. -/

namespace Sys2Proof.Machine

/-! ### The three checks -/

/-- The complement of R102 and R109, written with the mask. -/
theorem not_eq_xor_ones (q : Byte) : ~~~q = q ^^^ 0xFF#8 := (BitVec.xor_allOnes (x := q)).symm

/-- The bytes of the header, in order of increasing offset (R101, R108). -/
theorem leBytes_magic : leBytes 2 Config.magic = [0x74#8, 0x95#8] := by decide

/-- Two bytes are the header exactly when they are its bytes (R101). -/
theorem leValue_eq_magic (b0 b1 : Byte) :
    (BitVec.ofNat 16 (leValue [b0, b1]) == Config.magic) = decide (b0 = 0x74#8 ∧ b1 = 0x95#8) := by
  have h0 := b0.isLt
  have h1 := b1.isLt
  rw [Bool.eq_iff_iff, beq_iff_eq, decide_eq_true_iff, ← BitVec.toNat_inj, ← BitVec.toNat_inj, ← BitVec.toNat_inj]
  simp only [leValue, Config.magic, BitVec.toNat_ofNat]
  omega

theorem holds_pair {m : Memory} {off : Nat} {a b : Byte} :
    holds m off [a, b] ↔ m.byte? off = some a ∧ m.byte? (off + 1) = some b := by
  refine ⟨fun h => ⟨h 0 (by simp), h 1 (by simp)⟩, fun ⟨h0, h1⟩ k hk => ?_⟩
  match k, hk with
  | 0, _ => exact h0
  | 1, _ => exact h1

/-- A region holds two sequences in a row exactly when each stands in its place. -/
theorem holds_append {m : Memory} {off : Nat} {as bs : List Byte} :
    holds m off (as ++ bs) ↔ holds m off as ∧ holds m (off + as.length) bs := by
  refine ⟨fun h => ⟨fun k hk => ?_, fun k hk => ?_⟩, fun ⟨has, hbs⟩ k hk => ?_⟩
  · rw [h k (by rw [List.length_append]; omega), List.getElem?_append_left hk]
  · rw [Nat.add_assoc, h (as.length + k) (by rw [List.length_append]; omega),
      List.getElem?_append_right (Nat.le_add_right _ k), Nat.add_sub_cancel_left]
  · rcases Nat.lt_or_ge k as.length with hlt | hge
    · rw [has k hlt, List.getElem?_append_left hlt]
    · rw [List.length_append] at hk
      rw [List.getElem?_append_right hge, ← hbs (k - as.length) (by omega), Nat.add_assoc, Nat.add_sub_cancel' hge]

/-- What has been stored stands there. -/
theorem holds_of_stored {m m' : Memory} {off : Nat} {bs : List Byte} (h : stored m m' off bs) : holds m' off bs := by
  intro k hk
  rw [h, if_pos ⟨Nat.le_add_right off k, Nat.add_lt_add_left hk off⟩, Nat.add_sub_cancel_left]

/-- A region that holds a sequence is as if it had just been stored there. -/
theorem stored_self {m : Memory} {off : Nat} {bs : List Byte} (h : holds m off bs) : stored m m off bs := by
  intro a
  split
  · rename_i ha
    rw [← h (a - off) (by omega), Nat.add_sub_cancel' ha.1]
  · rfl

theorem readBytes_pair {m : Memory} {off : Nat} {bs : List Byte} :
    m.readBytes off 2 = .ok bs ↔ ∃ a b, bs = [a, b] ∧ holds m off [a, b] := by
  rw [Memory.readBytes_ok]
  constructor
  · rintro ⟨hlen, hbytes⟩
    obtain ⟨a, b, rfl⟩ := List.length_eq_two.1 hlen
    exact ⟨a, b, rfl, hbytes⟩
  · rintro ⟨a, b, rfl, h⟩
    exact ⟨rfl, h⟩

/-- The header check answers where both of its bytes are written (R101). -/
theorem hdrOK_ok {m : Memory} {good : Bool} :
    m.hdrOK = .ok good ↔ ∃ b0 b1, holds m 0 [b0, b1] ∧ good = decide (b0 = 0x74#8 ∧ b1 = 0x95#8) := by
  have hle : m.hdrOK = .ok good ↔ ∃ h, m.le16 0 = .ok h ∧ good = (h == Config.magic) := by
    unfold Memory.hdrOK Memory.header
    cases m.le16 0 <;> simp [eq_comm]
  rw [hle]
  constructor
  · rintro ⟨h, hread, rfl⟩
    obtain ⟨bs, hbs, rfl⟩ := Memory.le16_ok.1 hread
    obtain ⟨b0, b1, rfl, hholds⟩ := readBytes_pair.1 hbs
    exact ⟨b0, b1, hholds, leValue_eq_magic b0 b1⟩
  · rintro ⟨b0, b1, hholds, rfl⟩
    exact ⟨_, Memory.le16_ok.2 ⟨_, readBytes_pair.2 ⟨b0, b1, rfl, hholds⟩, rfl⟩, (leValue_eq_magic b0 b1).symm⟩

theorem hdrOK_error {m : Memory} {f : Fault} : m.hdrOK = .error f ↔ m.readBytes 0 2 = .error f := by
  rw [← Memory.le16_error]
  unfold Memory.hdrOK Memory.header
  cases m.le16 0 <;> simp

theorem hdrOK_true {m : Memory} : m.hdrOK = .ok true ↔ holds m 0 [0x74#8, 0x95#8] := by
  rw [hdrOK_ok]
  constructor
  · rintro ⟨b0, b1, h, hgood⟩
    obtain ⟨rfl, rfl⟩ := of_decide_eq_true hgood.symm
    exact h
  · exact fun h => ⟨_, _, h, rfl⟩

/-- The sequencer check is a read of its two bytes (R102). -/
theorem seqOK_eq (m : Memory) :
    m.seqOK = (m.readBytes 2 2).map fun bs => bs[1]? == bs[0]?.map (· ^^^ 0xFF#8) := by
  unfold Memory.seqOK Memory.sequencer Memory.complementSequencer
  simp only [Memory.readBytes]
  rcases m.readByte 2 with f | q
  · rfl
  · rcases m.readByte 3 with f | c
    · rfl
    · simp [Except.map, not_eq_xor_ones]

theorem seqOK_ok {m : Memory} {good : Bool} :
    m.seqOK = .ok good ↔ ∃ q c, holds m 2 [q, c] ∧ good = (c == q ^^^ 0xFF#8) := by
  rw [seqOK_eq]
  constructor
  · intro h
    rcases hread : m.readBytes 2 2 with f | bs
    · rw [hread] at h
      cases h
    · rw [hread] at h
      obtain ⟨q, c, rfl, hholds⟩ := readBytes_pair.1 hread
      cases h
      exact ⟨q, c, hholds, rfl⟩
  · rintro ⟨q, c, hholds, rfl⟩
    rw [readBytes_pair.2 ⟨q, c, rfl, hholds⟩]
    rfl

theorem seqOK_error {m : Memory} {f : Fault} : m.seqOK = .error f ↔ m.readBytes 2 2 = .error f := by
  rw [seqOK_eq]
  cases m.readBytes 2 2 <;> simp [Except.map]

theorem seqOK_true {m : Memory} : m.seqOK = .ok true ↔ ∃ q, holds m 2 [q, q ^^^ 0xFF#8] := by
  rw [seqOK_ok]
  constructor
  · rintro ⟨q, c, h, hgood⟩
    obtain rfl := eq_of_beq hgood.symm
    exact ⟨q, h⟩
  · exact fun ⟨q, h⟩ => ⟨q, _, h, (beq_self_eq_true _).symm⟩

/-- Where the three checks fault: the one that does stands behind checks that pass (R104, R106). -/
theorem classify_error_iff {m : Memory} {f : Fault} :
    m.classify = .error f ↔ m.hdrOK = .error f ∨ (m.hdrOK = .ok true ∧ m.seqOK = .error f)
      ∨ (m.hdrOK = .ok true ∧ m.seqOK = .ok true ∧ m.crcStage = .error f) := by
  unfold Memory.classify
  rcases m.hdrOK with g | (_ | _)
  · simp
  · simp
  · rcases m.seqOK with g | (_ | _)
    · simp
    · simp
    · rcases m.crcStage with g | ⟨w, _ | _⟩ <;> simp

/-! ### VALIDATE -/

/-- VALIDATE is the three checks with their verdict (R104). -/
theorem exec_validate_eq {s : State} {r : VRes} {c : Option Word} (h : s.pkt.classify = .ok (r, c)) :
    exec .validate s = .next (setVerdict r { s with pcrc := c.getD s.pcrc }) := by
  rw [exec, execValidate, h, withRead_ok]

/-- VALIDATE faults exactly where the checks do (R104, R106). -/
theorem exec_validate_fault {s : State} {f : Fault} : exec .validate s = .fault f ↔ s.pkt.classify = .error f := by
  rw [exec, execValidate, withRead_fault]
  simp

/-- A wrong header (R104). -/
theorem classify_badHeader {m : Memory} {b0 b1 : Byte} (h : holds m 0 [b0, b1]) (hne : ¬(b0 = 0x74#8 ∧ b1 = 0x95#8)) :
    m.classify = .ok (.badHeader, none) :=
  Memory.classify_ok.2 (.inl ⟨hdrOK_ok.2 ⟨b0, b1, h, (decide_eq_false hne).symm⟩, rfl, rfl⟩)

/-- A wrong pair under a right header (R104). -/
theorem classify_badSequencer {m : Memory} {q c : Byte} (hhdr : holds m 0 [0x74#8, 0x95#8]) (hseq : holds m 2 [q, c])
    (hne : q ^^^ c ≠ 0xFF#8) : m.classify = .ok (.badSequencer, none) := by
  have hc : c ≠ q ^^^ 0xFF#8 := by
    rintro rfl
    rw [← BitVec.xor_assoc, BitVec.xor_self, BitVec.zero_xor] at hne
    exact hne rfl
  exact Memory.classify_ok.2 (.inr (.inl
    ⟨hdrOK_true.2 hhdr, seqOK_ok.2 ⟨q, c, hseq, (beq_false_of_ne hc).symm⟩, rfl, rfl⟩))

/-- Where the header and the pair are right, the crc32 field is compared with the checksum of the 36 bytes (R103). -/
theorem classify_crcStage {m : Memory} {bs : List Byte} {v : Word} (hhdr : m.hdrOK = .ok true)
    (hseq : m.seqOK = .ok true) (hlen : bs.length = 36) (hbs : holds m 0 bs) (hfield : holds m 36 (lanes .w4 v)) :
    m.classify = .ok (if v = crc32 bs then .ok else .badCrc, some (crc32 bs)) := by
  have hv : m.crc32Field = .ok v := crc32Field_of_stored (stored_self (leBytes_eq_lanes .w4 v ▸ hfield))
  exact Memory.classify_ok.2 (.inr (.inr ⟨hhdr, hseq, crc32 bs, v == crc32 bs,
    crcStage_ok.2 ⟨packetCrc_of_holds hlen hbs, v, hv, rfl⟩, rfl, by simp⟩))

/-- Where the CRC stage answers, each of the 40 bytes is written. -/
theorem byte?_ne_none_of_crcStage {m : Memory} {p : Word × Bool} (h : m.crcStage = .ok p) {a : Nat} (ha : a < 40) :
    m.byte? a ≠ none := by
  obtain ⟨hcrc, field, hfield, -⟩ := crcStage_ok.1 h
  obtain ⟨bs, hbody, -⟩ := Memory.packetCrc_ok.1 hcrc
  obtain ⟨cs, htail, -⟩ := Memory.le32_ok.1 hfield
  rcases Nat.lt_or_ge a 36 with hlt | hge
  · exact byte?_ne_none_of_readBytes hbody (Nat.zero_le a) (by omega)
  · exact byte?_ne_none_of_readBytes htail hge (by omega)

/-- The four bytes of a right header and pair. -/
theorem holds_header_pair {m : Memory} {q c : Byte} :
    holds m 0 [0x74#8, 0x95#8, q, c] ↔ m.hdrOK = .ok true ∧ holds m 2 [q, c] :=
  (holds_append (as := [0x74#8, 0x95#8])).trans (and_congr_left' hdrOK_true.symm)

/-- A fault of VALIDATE names an unwritten byte of the branch it takes (R106). -/
theorem validate_fault_branch {s : State} {k : Nat} (h : exec .validate s = .fault (.unwrittenRead k)) :
    s.pkt.byte? k = none ∧ (2 ≤ k → holds s.pkt 0 [0x74#8, 0x95#8])
      ∧ (4 ≤ k → ∃ q, holds s.pkt 0 [0x74#8, 0x95#8, q, q ^^^ 0xFF#8]) := by
  obtain ⟨_, -, ⟨⟩, hnone⟩ := exec_fault h
  refine ⟨hnone, ?_⟩
  obtain hhdr | ⟨hhdr, hseq⟩ | ⟨hhdr, hseq, -⟩ := classify_error_iff.1 (exec_validate_fault.1 h)
  · obtain ⟨j, hj, -, -, ⟨⟩⟩ := Memory.readBytes_error.1 (hdrOK_error.1 hhdr)
    exact ⟨by omega, by omega⟩
  · obtain ⟨j, hj, -, -, ⟨⟩⟩ := Memory.readBytes_error.1 (seqOK_error.1 hseq)
    exact ⟨fun _ => hdrOK_true.1 hhdr, by omega⟩
  · obtain ⟨q, hq⟩ := seqOK_true.1 hseq
    exact ⟨fun _ => hdrOK_true.1 hhdr, fun _ => ⟨q, holds_header_pair.2 ⟨hhdr, hq⟩⟩⟩

/-- An unwritten header byte is the fault of VALIDATE (R104). -/
theorem validate_faultsOn_header {s : State} (h : missing s.pkt 0 2) : faultsOn (exec .validate s) s.pkt 0 2 := by
  obtain ⟨k, hk, hnone, hread⟩ := readBytes_missing h
  exact ⟨k, hk, hnone, exec_validate_fault.2 (classify_error_iff.2 (.inl (hdrOK_error.2 hread)))⟩

/-- So is an unwritten byte of the pair under a right header. -/
theorem validate_faultsOn_pair {s : State} (hhdr : s.pkt.hdrOK = .ok true) (h : missing s.pkt 2 2) :
    faultsOn (exec .validate s) s.pkt 2 2 := by
  obtain ⟨k, hk, hnone, hread⟩ := readBytes_missing h
  exact ⟨k, hk, hnone, exec_validate_fault.2 (classify_error_iff.2 (.inr (.inl ⟨hhdr, seqOK_error.2 hread⟩)))⟩

/-- And so is an unwritten byte of the rest under a right header and pair: the first four are written. -/
theorem validate_faultsOn_rest {s : State} {q : Byte} (h : holds s.pkt 0 [0x74#8, 0x95#8, q, q ^^^ 0xFF#8])
    (hmissing : missing s.pkt 4 36) : faultsOn (exec .validate s) s.pkt 4 36 := by
  obtain ⟨hhdr, hpair⟩ := holds_header_pair.1 h
  cases hstage : s.pkt.crcStage with
  | ok p =>
    obtain ⟨k, hk, hnone⟩ := hmissing
    exact absurd hnone (byte?_ne_none_of_crcStage hstage (by omega))
  | error f =>
    obtain ⟨off, hoff, rfl, hnone⟩ := crcStage_namesUnwritten hstage
    have hoff' : off < 40 := hoff
    have hge : 4 ≤ off := by
      by_contra hlt
      have hbyte := h off (Nat.lt_of_not_le hlt)
      rw [Nat.zero_add, hnone, eq_comm, List.getElem?_eq_none_iff] at hbyte
      exact hlt hbyte
    refine ⟨off - 4, by omega, ?_, ?_⟩ <;> rw [Nat.add_sub_cancel' hge]
    · exact hnone
    · exact exec_validate_fault.2 (classify_error_iff.2 (.inr (.inr ⟨hhdr, seqOK_true.2 ⟨q, hpair⟩, hstage⟩)))

/-- Settles O46, one clause for each branch and each fault of `classify`. -/
theorem validateClassifies : Obligations.ValidateClassifies := by
  refine fun s => ⟨fun b0 b1 h0 h1 hne => ?_, fun q c h hne => ?_, fun q body v hlen h => ?_,
    fun k => validate_fault_branch, validate_faultsOn_header, fun hhdr => validate_faultsOn_pair (hdrOK_true.2 hhdr),
    fun q => validate_faultsOn_rest⟩
  · exact exec_validate_eq (classify_badHeader (holds_pair.2 ⟨h0, h1⟩) hne)
  · obtain ⟨hhdr, hpair⟩ := holds_header_pair.1 h
    exact exec_validate_eq (classify_badSequencer (hdrOK_true.1 hhdr) hpair hne)
  · obtain ⟨hbody, hfield⟩ := holds_append.1 h
    obtain ⟨hhdr, hpair⟩ := holds_header_pair.1 (holds_append.1 hbody).1
    have hlen36 : ([0x74#8, 0x95#8, q, q ^^^ 0xFF#8] ++ body).length = 36 := by simp [hlen]
    rw [hlen36] at hfield
    exact exec_validate_eq (classify_crcStage hhdr (seqOK_true.2 ⟨q, hpair⟩) hlen36 hbody hfield)

/-! ### SETHDR and SETSEQ -/

/-- Settles O47. -/
theorem sethdrWritesMagic : Obligations.SethdrWritesMagic := by
  intro s
  refine ⟨pktPut 0 (leBytes 2 Config.magic) s, rfl, ?_, rfl⟩
  rw [← leBytes_magic]
  exact pktPut_stored 0 _ s

/-- Settles O48: the pair stored is the one the check asks for. -/
theorem setseqWritesPair : Obligations.SetseqWritesPair := by
  intro s imm8
  have hstored := pktPut_stored 2 [imm8, ~~~imm8] s
  rw [not_eq_xor_ones] at hstored
  refine ⟨pktPut 2 [imm8, ~~~imm8] s, rfl, ?_, rfl, ?_⟩ <;> rw [not_eq_xor_ones]
  · exact hstored
  · exact seqOK_true.2 ⟨imm8, holds_of_stored hstored⟩

/-! ### The verdict along a step -/

/-- The kinds of change a move makes to VRES, VVALID and PKTBUF: VVALID and VRES stand with the buffer they were given
for, or VVALID is cleared, or the verdict is given anew, which only a move with `judges` does (R104, R107). -/
inductive VerdictChange (judges : Prop) (s t : State) : Prop where
  | kept (hpkt : t.pkt = s.pkt) (hvres : t.status.vres = s.status.vres) (hvvalid : t.status.vvalid = s.status.vvalid)
  | cleared (hvvalid : t.status.vvalid = false)
  | judged (hjudges : judges) (hpkt : t.pkt = s.pkt) (hclass : ∃ c, s.pkt.classify = .ok (t.status.vres, c))

/-- What holds of the moves that judge can be weakened. -/
theorem VerdictChange.imp {p q : Prop} {s t : State} (hpq : p → q) (h : VerdictChange p s t) : VerdictChange q s t := by
  cases h with
  | kept hpkt hvres hvvalid => exact .kept hpkt hvres hvvalid
  | cleared hvvalid => exact .cleared hvvalid
  | judged hjudges hpkt hclass => exact .judged (hpq hjudges) hpkt hclass

/-- ENCT clears VVALID where it stores to the buffer, and leaves the verdict alone elsewhere (R122, R127). -/
theorem execEnct_verdict {a : FSel} {s t : State} (h : execEnct a s = .next t) : VerdictChange False s t := by
  rw [execEnct] at h
  split at h
  · cases h
    rw [raiseRangeIf_eq, putTemp_eq]
    split
    · exact .cleared rfl
    · exact .kept rfl rfl rfl
  · cases h

/-- So does ENCQ (R124, R127). -/
theorem execEncq_verdict {a : FSel} {s t : State} (h : execEncq a s = .next t) : VerdictChange False s t := by
  rw [execEncq] at h
  split at h
  · cases h
    rw [raiseRangeIf_eq, putQ]
    split
    · exact .cleared rfl
    · exact .kept rfl rfl rfl
  · cases h

/-- VALIDATE is the only command that gives a verdict; one that stores to the buffer clears VVALID (R107). -/
theorem exec_verdict {i : Instr} {s t : State} (h : exec i s = .next t) : VerdictChange (i = .validate) s t := by
  cases i with
  | nop =>
    cases h
    exact .kept rfl rfl rfl
  | validate =>
    obtain ⟨⟨r, c⟩, hclass, ht⟩ := withRead_next.1 h
    cases ht
    exact .judged rfl rfl ⟨c, hclass⟩
  | crcpkt =>
    obtain ⟨c, -, ht⟩ := withRead_next.1 h
    cases ht
    exact .kept rfl rfl rfl
  | sealPkt =>
    obtain ⟨c, -, ht⟩ := withRead_next.1 h
    cases ht
    exact .cleared rfl
  | sethdr =>
    cases h
    exact .cleared rfl
  | setseq imm8 =>
    cases h
    exact .cleared rfl
  | cvtt a =>
    rw [exec, execCvtt] at h
    split at h
    · obtain ⟨v, -, ht⟩ := withRead_next.1 h
      cases ht
      exact .kept rfl rfl rfl
    · cases h
  | cvtq a =>
    rw [exec, execCvtq] at h
    split at h
    · obtain ⟨v, -, ht⟩ := withRead_next.1 h
      cases ht
      exact .kept rfl rfl rfl
    · cases h
  | enct a => exact (execEnct_verdict h).imp False.elim
  | encq a => exact (execEncq_verdict h).imp False.elim

/-- A host access gives no verdict; one that stores to the buffer clears VVALID (R73, R107). -/
theorem hostAccess_verdict {off : Nat} {op : BusOp} {s t : State} (h : hostAccess off op s = .next t) :
    VerdictChange False s t := by
  cases op with
  | read n =>
    obtain ⟨-, -, v, -, rfl⟩ | ⟨-, -, rfl⟩ | ⟨-, rfl⟩ := hostRead_next.1 h <;> exact .kept rfl rfl rfl
  | write n v =>
    rw [hostAccess, hostWrite_next] at h
    cases h
    split
    · rename_i hacc
      obtain ⟨-, -, hw⟩ | ⟨-, -, hw⟩ | ⟨-, -, -, -, hw⟩ | ⟨-, -, -, -, hw⟩ | ⟨-, -, hw⟩ | ⟨-, -, hw⟩ | ⟨-, -, hw⟩
        | ⟨-, -, hw⟩ | ⟨-, -, -, hw⟩ | ⟨-, -, -, hw⟩ | ⟨-, -, -, hw⟩ := permittedWrite_cases v s hacc <;> rw [hw]
      case inr.inl => exact .cleared rfl
      all_goals exact .kept rfl rfl rfl
    · exact .kept rfl rfl rfl

/-- Every step makes one of these changes, and gives a verdict only as the completion of a VALIDATE (R107). -/
theorem step_verdict {s t : State} (h : step s = .next t) :
    VerdictChange (s.status.busy = true ∧ decode s.pend = .ok .validate ∧ ∃ rest, blockNext s rest) s t := by
  obtain ⟨-, -, rfl⟩ | ⟨rest, i, u, hturn, hbusy, hdecode, hexec, rfl⟩ | ⟨rest, -, -, rfl⟩ | ⟨_, _, rest, -, -, rfl⟩
    | ⟨off, op, rest, -, hhost⟩ | ⟨rest, -, rfl⟩ := step_cases h
  · exact .kept rfl rfl rfl
  · cases exec_verdict hexec with
    | kept hpkt hvres hvvalid => exact .kept hpkt hvres hvvalid
    | cleared hvvalid => exact .cleared hvvalid
    | judged hi hpkt hclass => exact .judged ⟨hbusy, hi ▸ hdecode, rest, hturn⟩ hpkt hclass
  · exact .kept rfl rfl rfl
  · exact .kept rfl rfl rfl
  · cases hostAccess_verdict hhost with
    | kept hpkt hvres hvvalid => exact .kept hpkt hvres hvvalid
    | cleared hvvalid => exact .cleared hvvalid
    | judged hnever => exact hnever.elim
  · exact .cleared rfl

/-- Settles O12: a verdict that is kept is kept with its buffer, and one given anew is that of the buffer. -/
theorem stepKeepsVerdictCurrent : Obligations.StepKeepsVerdictCurrent := by
  intro s t hcurrent h hvalid
  cases step_verdict h with
  | kept hpkt hvres hvvalid =>
    rw [hpkt, hvres]
    exact hcurrent (hvvalid ▸ hvalid)
  | cleared hvvalid => simp [hvvalid] at hvalid
  | judged hjudges hpkt hclass => rwa [hpkt]

/-- Settles O22: only the completion of a VALIDATE gives a verdict, and it leaves the buffer as it is. -/
theorem vvalidTracksBuffer : Obligations.VvalidTracksBuffer := by
  intro s t h
  cases step_verdict h with
  | kept hpkt hvres hvvalid =>
    exact ⟨fun hclear hset => by simp [hvvalid, hclear] at hset, fun a ha => absurd (by rw [hpkt]) ha⟩
  | cleared hvvalid => exact ⟨by simp [hvvalid], fun _ _ => hvvalid⟩
  | judged hjudges hpkt hclass => exact ⟨fun _ _ => hjudges, fun a ha => absurd (by rw [hpkt]) ha⟩

end Sys2Proof.Machine
end

section
/-! SUPPORT. What follows from a correct rounding of the decoders' exact values (R9, R115, R118, R120): every multiple of
1/65536 in reach is a binary64 value, so the rounding of one is exact, the rounding of any value is within half of
1/65536, and a value of at least 1/65536 is not rounded to a subnormal. -/

namespace Sys2Proof.Machine

/-! ### The values binary64 has -/

/-- A significand that stands at its own scale is rounded to itself. -/
theorem RoundedAt.self {j m : ℕ} (hlt : m < 2 ^ 53) (hle : 0 < j → 2 ^ 52 ≤ m) : RoundedAt (m * ulp j) j m := by
  have hu := ulp_pos j
  refine ⟨mul_lt_mul_of_pos_right (by exact_mod_cast hlt) hu, fun hj => ?_, ?_, fun h => ?_⟩
  · exact mul_le_mul_of_nonneg_right (by exact_mod_cast hle hj) hu.le
  · simpa using (half_pos hu).le
  · rw [sub_self, abs_zero] at h
    exact absurd h (half_pos hu).ne

/-- Its pattern is finite and denotes it. -/
theorem RoundedAt.exists_finite {y : ℚ} {j m : ℕ} (h : RoundedAt y j m) (hk : j * 2 ^ 52 + m < 2047 * 2 ^ 52) :
    ∃ e, isFinite e ∧ valueQ e = m * ulp j := by
  refine ⟨_, ?_, h.valueQ_pattern hk⟩
  rw [isFinite, RoundedAt.expBits_pattern hk]
  omega

/-- Each number of units with at most 53 bits is a value, by induction on the scale: without its hidden bit it stands at
the next finer one. -/
theorem exists_valueQ_eq_mul_ulp {j m : ℕ} (hj : j ≤ 2045) (hm : m < 2 ^ 53) :
    ∃ e, isFinite e ∧ valueQ e = m * ulp j := by
  induction j generalizing m with
  | zero => exact (RoundedAt.self hm (by omega)).exists_finite (by omega)
  | succ j ih =>
    rcases Nat.lt_or_ge m (2 ^ 52) with hlt | hge
    · obtain ⟨e, hfin, he⟩ := ih (by omega) (show 2 * m < 2 ^ 53 by omega)
      refine ⟨e, hfin, he.trans ?_⟩
      rw [ulp_add]
      push_cast
      ring
    · exact (RoundedAt.self hm fun _ => hge).exists_finite (by omega)

/-- The unit of Q15.16 is the last bit of a significand at scale 1058. -/
theorem ulp_1058 : ulp 1058 = 1 / 65536 := by norm_num [ulp]

/-- Every multiple of 1/65536 that fits a significand is a value (R118). -/
theorem exists_valueQ_eq_div {q : ℤ} (hq : |q| < 2 ^ 53) : ∃ e, isFinite e ∧ valueQ e = q / 65536 := by
  obtain ⟨e, hfin, he⟩ := exists_valueQ_eq_mul_ulp (j := 1058) (m := q.natAbs) (by norm_num) (by zify; exact hq)
  rw [ulp_1058, Nat.cast_natAbs, mul_one_div] at he
  rcases abs_choice q with habs | habs <;> rw [habs] at he
  · exact ⟨e, hfin, he⟩
  · refine ⟨flipSign e, by simpa using hfin, ?_⟩
    rw [valueQ_flipSign, he]
    push_cast
    ring

/-- A zero or subnormal pattern is below half of 1/65536 by far. -/
theorem abs_valueQ_lt {d : Double} (h : expBits d = 0) : |valueQ d| < 1 / 131072 := by
  have hscale : scale d = 0 := by rw [scale, h]
  have hsig : (significand d : ℚ) < 2 ^ 53 := by exact_mod_cast significand_lt d
  have habs : |valueQ d| = significand d * ulp 0 := by
    have hpos : 0 ≤ significand d * ulp 0 := mul_nonneg (Nat.cast_nonneg _) (ulp_pos 0).le
    rw [valueQ_eq, hscale]
    split <;> simp [abs_of_nonneg hpos]
  calc |valueQ d| < 2 ^ 53 * ulp 0 := habs ▸ mul_lt_mul_of_pos_right hsig (ulp_pos 0)
    _ = 2 ^ (-1021 : ℤ) := by rw [ulp, ← zpow_natCast, ← zpow_add₀ two_ne_zero]; rfl
    _ ≤ 2 ^ (-17 : ℤ) := zpow_le_zpow_right₀ one_le_two (by norm_num)
    _ = 1 / 131072 := by norm_num

/-! ### The nearest value -/

/-- What is a value is rounded to itself. -/
theorem isNearest.valueQ_eq_of_div {q : ℤ} {d : Double} (hq : |q| < 2 ^ 53) (h : isNearest (q / 65536) d) :
    valueQ d = q / 65536 := by
  obtain ⟨-, hnear, -, -⟩ := h
  obtain ⟨e, hfin, he⟩ := exists_valueQ_eq_div hq
  have hdist := hnear e hfin
  rw [he, sub_self, abs_zero] at hdist
  exact sub_eq_zero.1 (abs_nonpos_iff.1 hdist)

/-- The rounding error, measured against the nearest multiple of 1/65536. -/
theorem isNearest.abs_sub_le {x : ℚ} {d : Double} (hx : |x| ≤ 32768) (h : isNearest x d) :
    |valueQ d - x| ≤ 1 / 131072 := by
  obtain ⟨-, hnear, -, -⟩ := h
  obtain ⟨hlo, hhi⟩ := abs_le.1 hx
  obtain ⟨hdown, hup⟩ := abs_le.1 (abs_sub_round (x * 65536))
  have hq : |round (x * 65536)| < 2 ^ 53 := by
    rw [abs_lt]
    constructor <;> · qify; linarith
  obtain ⟨e, hfin, he⟩ := exists_valueQ_eq_div hq
  refine (hnear e hfin).trans ?_
  rw [he, abs_le]
  constructor <;> linarith

/-- From a value of at least 1/65536 in magnitude, the multiple 1 or -1 of it lies that much nearer than 0 does. -/
theorem exists_valueQ_toward {x : ℚ} (hx : 1 / 65536 ≤ |x|) :
    ∃ e, isFinite e ∧ |valueQ e - x| = |x| - 1 / 65536 := by
  rcases le_total 0 x with hpos | hneg
  · rw [abs_of_nonneg hpos] at hx ⊢
    obtain ⟨e, hfin, he⟩ := exists_valueQ_eq_div (q := 1) (by norm_num)
    refine ⟨e, hfin, ?_⟩
    rw [he, Int.cast_one, abs_of_nonpos (by linarith), neg_sub]
  · rw [abs_of_nonpos hneg] at hx ⊢
    obtain ⟨e, hfin, he⟩ := exists_valueQ_eq_div (q := -1) (by norm_num)
    refine ⟨e, hfin, ?_⟩
    rw [he, Int.cast_neg, Int.cast_one, neg_div, abs_of_nonneg (by linarith)]
    ring

/-- R120: a value that is 0 or at least 1/65536 in magnitude is rounded to +0.0 or a normal pattern: a zero or subnormal
would be further away. -/
theorem isNearest.zeroOrNormal {x : ℚ} {d : Double} (hx : x ≠ 0 → 1 / 65536 ≤ |x|) (h : isNearest x d) :
    zeroOrNormal d := by
  obtain ⟨hfin, hnear, -, hzero⟩ := h
  by_cases h0 : x = 0
  · exact .inl (hzero h0)
  refine .inr ⟨Nat.one_le_iff_ne_zero.2 fun hexp => ?_, ?_⟩
  · obtain ⟨e, hefin, he⟩ := exists_valueQ_toward (hx h0)
    have hdist : |x| - |valueQ d| ≤ |x| - 1 / 65536 :=
      calc |x| - |valueQ d| ≤ |x - valueQ d| := abs_sub_abs_le_abs_sub x (valueQ d)
        _ = |valueQ d - x| := abs_sub_comm _ _
        _ ≤ |valueQ e - x| := hnear e hefin
        _ = |x| - 1 / 65536 := he
    linarith [abs_valueQ_lt hexp]
  · have hlt : expBits d < 2 ^ 11 := by
      rw [expBits_eq]
      exact Nat.mod_lt _ (by norm_num)
    omega

/-- A fraction with a denominator of at most 65536 is 0 or at least 1/65536 in magnitude. -/
theorem le_abs_intCast_div {k : ℤ} {n : ℚ} (hn : 0 < n) (hle : n ≤ 65536) (h : (k : ℚ) / n ≠ 0) :
    1 / 65536 ≤ |(k : ℚ) / n| := by
  have hk : k ≠ 0 := by
    rintro rfl
    simp at h
  rw [abs_div, abs_of_pos hn]
  exact div_le_div₀ (abs_nonneg _) (by exact_mod_cast Int.one_le_abs hk) hn hle

/-- rne64 gives the nearest value to everything the decoders make (R9, R115, R118). -/
theorem isNearest_rne64 {x : Frac} (hden : 0 < x.den) (hx : |x.toQ| ≤ 32768) : isNearest x.toQ (rne64 x) := by
  have hulp : (1 : ℚ) ≤ ulp 2045 := one_le_zpow₀ one_le_two (by norm_num)
  refine (roundingIsNearestEven x hden).1 (hx.trans_lt ?_)
  rw [threshold_eq]
  linarith

end Sys2Proof.Machine
end

section
/-! SUPPORT. The decoders (R114 to R120): what they round, that CVTT and CVTQ put it into FRES and change nothing else,
and that no other move writes FRES. -/

namespace Sys2Proof.Machine

/-! ### What the decoders give -/

theorem exactCelsius_toQ (t : Half) : (exactCelsius t).toQ = ((t.toNat : ℚ) - 27315) / 100 := by
  simp [exactCelsius, Frac.toQ, Config.tempOffset, Config.tempScale]

theorem abs_exactCelsius_le (t : Half) : |((t.toNat : ℚ) - 27315) / 100| ≤ 32768 := by
  have ht : (t.toNat : ℚ) < 65536 := by exact_mod_cast t.isLt
  have ht0 : (0 : ℚ) ≤ t.toNat := Nat.cast_nonneg _
  rw [abs_le]
  constructor <;> linarith

/-- R115: one correct rounding of the exact temperature. -/
theorem celsius_isNearest (t : Half) : isNearest (((t.toNat : ℚ) - 27315) / 100) (celsius t) := by
  rw [← exactCelsius_toQ]
  exact isNearest_rne64 (Nat.succ_pos _) (by rw [exactCelsius_toQ]; exact abs_exactCelsius_le t)

/-- R120, for CVTT: a temperature other than 0 is at least a hundredth of a degree. -/
theorem celsius_zeroOrNormal (t : Half) : zeroOrNormal (celsius t) := by
  refine (celsius_isNearest t).zeroOrNormal ?_
  have hint : (t.toNat : ℚ) - 27315 = ((t.toNat - 27315 : ℤ) : ℚ) := by push_cast; rfl
  rw [hint]
  exact le_abs_intCast_div (by norm_num) (by norm_num)

theorem exactQ_toQ (q : ℤ) : (exactQ q).toQ = q / 65536 := by
  simp [exactQ, Frac.toQ, Config.qScale]

/-- The two's complement range (R6). -/
theorem abs_s32_le (v : Word) : |s32 v| ≤ 2 ^ 31 :=
  abs_le.2 ⟨v.le_toInt, v.toInt_lt.le⟩

/-- R118: one correct rounding of the exact value. -/
theorem q16_isNearest (v : Word) : isNearest ((s32 v : ℚ) / 65536) (q16 (s32 v)) := by
  have hle : |(s32 v : ℚ)| ≤ 2 ^ 31 := by exact_mod_cast abs_s32_le v
  rw [← exactQ_toQ]
  refine isNearest_rne64 (Nat.succ_pos _) ?_
  rw [exactQ_toQ, abs_div, abs_of_pos (by norm_num : (0 : ℚ) < 65536)]
  linarith

/-- R118: the rounding never acts. -/
theorem valueQ_q16 (v : Word) : valueQ (q16 (s32 v)) = (s32 v : ℚ) / 65536 :=
  (q16_isNearest v).valueQ_eq_of_div ((abs_s32_le v).trans_lt (by norm_num))

/-- R120, for CVTQ. -/
theorem q16_zeroOrNormal (v : Word) : zeroOrNormal (q16 (s32 v)) :=
  (q16_isNearest v).zeroOrNormal (le_abs_intCast_div (by norm_num) le_rfl)

/-- Settles O57, by evaluating the decoders. -/
theorem conversionBounds : Obligations.ConversionBounds := by
  unfold Obligations.ConversionBounds
  decide

/-! ### Who writes FRES -/

/-- A command leaves FRES alone or puts a decoder's output there (R116, R119). -/
theorem exec_fres {i : Instr} {s t : State} (h : exec i s = .next t) :
    t.fres = s.fres ∨ (∃ v, t.fres = celsius v) ∨ ∃ v, t.fres = q16 (s32 v) := by
  cases i with
  | nop | sethdr | setseq imm8 =>
    cases h
    exact .inl rfl
  | validate | crcpkt | sealPkt =>
    obtain ⟨_, -, ht⟩ := withRead_next.1 h
    cases ht
    exact .inl rfl
  | cvtt a =>
    rw [exec, execCvtt] at h
    split at h
    · obtain ⟨v, -, ht⟩ := withRead_next.1 h
      cases ht
      exact .inr (.inl ⟨v, rfl⟩)
    · cases h
  | cvtq a =>
    rw [exec, execCvtq] at h
    split at h
    · obtain ⟨v, -, ht⟩ := withRead_next.1 h
      cases ht
      exact .inr (.inr ⟨v, rfl⟩)
    · cases h
  | enct a =>
    rw [exec, execEnct] at h
    split at h
    · cases h
      rw [raiseRangeIf_eq, putTemp_eq]
      split <;> exact .inl rfl
    · cases h
  | encq a =>
    rw [exec, execEncq] at h
    split at h
    · cases h
      rw [raiseRangeIf_eq, putQ]
      split <;> exact .inl rfl
    · cases h

/-- No host access writes FRES (R36). -/
theorem hostAccess_fres {off : Nat} {op : BusOp} {s t : State} (h : hostAccess off op s = .next t) :
    t.fres = s.fres := by
  cases op with
  | read n => obtain ⟨-, -, v, -, rfl⟩ | ⟨-, -, rfl⟩ | ⟨-, rfl⟩ := hostRead_next.1 h <;> rfl
  | write n v =>
    rw [hostAccess, hostWrite_next] at h
    cases h
    split
    · rename_i hacc
      obtain ⟨-, -, hw⟩ | ⟨-, -, hw⟩ | ⟨-, -, -, -, hw⟩ | ⟨-, -, -, -, hw⟩ | ⟨-, -, hw⟩ | ⟨-, -, hw⟩ | ⟨-, -, hw⟩
        | ⟨-, -, hw⟩ | ⟨-, -, -, hw⟩ | ⟨-, -, -, hw⟩ | ⟨-, -, -, hw⟩ := permittedWrite_cases v s hacc
      all_goals exact (congrArg State.fres hw).trans rfl
    · rfl

/-- Settles O13, over the agents of `step_cases`: FRES is kept, or a decoder's output, or the +0.0 of reset. -/
theorem stepKeepsFresNormal : Obligations.StepKeepsFresNormal := by
  intro s t hnormal h
  obtain ⟨-, -, rfl⟩ | ⟨rest, i, u, -, -, -, hexec, rfl⟩ | ⟨rest, -, -, rfl⟩ | ⟨_, _, rest, -, -, rfl⟩
    | ⟨off, op, rest, -, hhost⟩ | ⟨rest, -, rfl⟩ := step_cases h
  · exact hnormal
  · rw [fresNormal, finish_fres]
    obtain hkept | ⟨v, hv⟩ | ⟨v, hv⟩ := exec_fres hexec
    · rw [hkept]
      exact hnormal
    · rw [hv]
      exact celsius_zeroOrNormal v
    · rw [hv]
      exact q16_zeroOrNormal v
  · exact hnormal
  · exact hnormal
  · rw [fresNormal, hostAccess_fres hhost]
    exact hnormal
  · exact .inl rfl

/-! ### What the decoders read -/

/-- Sequences of one length with the same value are the same. -/
theorem leValue_inj {as bs : List Byte} (hlen : as.length = bs.length) (h : leValue as = leValue bs) : as = bs := by
  induction as generalizing bs with
  | nil => exact (List.eq_nil_of_length_eq_zero hlen.symm).symm
  | cons a as ih =>
    cases bs with
    | nil => cases hlen
    | cons b bs =>
      simp only [leValue] at h
      have ha := a.isLt
      have hb := b.isLt
      rw [BitVec.eq_of_toNat_eq (show a.toNat = b.toNat by omega), ih (Nat.succ.inj hlen) (by omega)]

theorem leValue_lt (bs : List Byte) : leValue bs < 2 ^ (8 * bs.length) := by
  induction bs with
  | nil => exact Nat.one_pos
  | cons b bs ih =>
    have hb := b.isLt
    rw [leValue, List.length_cons, Nat.mul_succ, pow_add]
    omega

/-- A region reads as a value exactly when it holds the bytes of that value (R7). -/
theorem readBytes_leValue {m : Memory} {off n : Nat} {v : BitVec (8 * n)} :
    (∃ bs, m.readBytes off n = .ok bs ∧ v = BitVec.ofNat (8 * n) (leValue bs)) ↔ holds m off (leBytes n v) := by
  have hlen : (leBytes n v).length = n := leBytes_length n v
  have hvalue : leValue (leBytes n v) = v.toNat := by rw [leValue_leBytes, Nat.mod_eq_of_lt v.isLt]
  constructor
  · rintro ⟨bs, hread, hv⟩
    obtain ⟨hbs, hbytes⟩ := Memory.readBytes_ok.1 hread
    have heq : leBytes n v = bs := by
      refine leValue_inj (hlen.trans hbs.symm) ?_
      rw [hvalue, hv, BitVec.toNat_ofNat, Nat.mod_eq_of_lt (hbs ▸ leValue_lt bs)]
    rw [heq, holds, hbs]
    exact hbytes
  · intro h
    refine ⟨leBytes n v, Memory.readBytes_ok.2 ⟨hlen, by rwa [holds, hlen] at h⟩, ?_⟩
    rw [hvalue, BitVec.ofNat_toNat, BitVec.setWidth_eq]

theorem le16_ok_iff {m : Memory} {off : Nat} {v : Half} : m.le16 off = .ok v ↔ holds m off (leBytes 2 v) :=
  Memory.le16_ok.trans (readBytes_leValue (n := 2))

theorem le32_ok_iff {m : Memory} {off : Nat} {v : Word} : m.le32 off = .ok v ↔ holds m off (leBytes 4 v) :=
  Memory.le32_ok.trans (readBytes_leValue (n := 4))

/-- An unwritten byte of its operand is the fault of a command. -/
theorem withRead_le16_missing {m : Memory} {off : Nat} (h : missing m off 2) (k : Half → Result) :
    faultsOn (withRead (m.le16 off) k) m off 2 := by
  obtain ⟨i, hi, hnone, hread⟩ := readBytes_missing h
  refine ⟨i, hi, hnone, ?_⟩
  rw [Memory.le16_error.2 hread, withRead_error]

theorem withRead_le32_missing {m : Memory} {off : Nat} (h : missing m off 4) (k : Word → Result) :
    faultsOn (withRead (m.le32 off) k) m off 4 := by
  obtain ⟨i, hi, hnone, hread⟩ := readBytes_missing h
  refine ⟨i, hi, hnone, ?_⟩
  rw [Memory.le32_error.2 hread, withRead_error]

/-! ### CVTT and CVTQ -/

theorem exec_cvtt_temp (s : State) :
    exec (.cvtt .temp) s = withRead (s.pkt.le16 10) fun t => .next { s with fres := celsius t } := rfl

theorem exec_cvtt_arg (s : State) : exec (.cvtt .arg) s = .next { s with fres := celsius (s.iarg.setWidth 16) } := rfl

/-- The selectors with a field are legal for CVTQ and ENCQ (R62). -/
theorem isQSel_of_qoff {a : FSel} {off : Nat} (h : qoff a = some off) : a.isQSel = true := by
  cases a with
  | temp => cases h
  | gyro0 | gyro1 | gyro2 | accel0 | accel1 | accel2 | arg => rfl

theorem exec_cvtq_field {a : FSel} {off : Nat} (h : qoff a = some off) (s : State) :
    exec (.cvtq a) s = withRead (s.pkt.le32 off) fun v => .next { s with fres := q16 (s32 v) } := by
  rw [exec, execCvtq, if_pos (isQSel_of_qoff h), qIn_field h]

theorem exec_cvtq_arg (s : State) : exec (.cvtq .arg) s = .next { s with fres := q16 (s32 s.iarg) } := rfl

/-- Settles O49: the operand that CVTT reads, and `celsius` of it. -/
theorem cvttIsCorrectlyRounded : Obligations.CvttIsCorrectlyRounded := by
  refine fun s => ⟨fun lo hi hbytes => ?_, ?_, fun hmissing => ?_⟩
  · have hread : s.pkt.le16 10 = .ok (BitVec.ofNat 16 (leValue [lo, hi])) :=
      Memory.le16_ok.2 ⟨_, readBytes_pair.2 ⟨lo, hi, rfl, hbytes⟩, rfl⟩
    have hvalue : (BitVec.ofNat 16 (leValue [lo, hi])).toNat = lo.toNat + 256 * hi.toNat :=
      Nat.mod_eq_of_lt (leValue_lt [lo, hi])
    refine ⟨celsius (BitVec.ofNat 16 (leValue [lo, hi])), ?_, ?_, celsius_zeroOrNormal _⟩
    · rw [exec_cvtt_temp, hread, withRead_ok]
    · rw [← hvalue]
      exact celsius_isNearest _
  · refine ⟨_, exec_cvtt_arg s, ?_, celsius_zeroOrNormal _⟩
    have hlow : s.iarg.extractLsb' 0 16 = s.iarg.setWidth 16 := (BitVec.setWidth_eq_extractLsb' (by norm_num)).symm
    rw [hlow]
    exact celsius_isNearest _
  · rw [exec_cvtt_temp]
    exact withRead_le16_missing hmissing _

/-- The six fields lie where R62 puts them. -/
theorem qoff_qFields : ∀ p ∈ qFields, qoff p.1 = some p.2 := by decide

/-- Settles O50: the operand that CVTQ reads, and `q16` of it. -/
theorem cvtqIsExact : Obligations.CvtqIsExact := by
  refine fun s => ⟨qoff_qFields, fun a off v hoff hbytes => ?_, ?_, fun a off hoff hmissing => ?_⟩
  · rw [← leBytes_eq_lanes] at hbytes
    refine ⟨q16 (s32 v), ?_, q16_zeroOrNormal v, valueQ_q16 v⟩
    rw [exec_cvtq_field hoff, le32_ok_iff.2 hbytes, withRead_ok]
  · exact ⟨_, exec_cvtq_arg s, q16_zeroOrNormal _, valueQ_q16 _⟩
  · rw [exec_cvtq_field hoff]
    exact withRead_le32_missing hmissing _

end Sys2Proof.Machine
end

section
/-! SUPPORT. The encoders (R121 to R129): the integer rounding is the real-number rule, so ENCT and ENCQ encode by that
rule, and a value within half a unit of a raw one encodes to it. -/

namespace Sys2Proof.Machine

/-! ### The integer rounding and the rule -/

/-- The exact fraction of a pattern is its value (R9). -/
theorem real_toQ (d : Double) : (real d).toQ = valueQ d := by
  have hpow := two_pow_toNat ((scale d : ℤ) - 1074)
  rw [neg_sub, show ((scale d : ℤ) - 1074).toNat = scale d - 1074 by omega,
    show (1074 - (scale d : ℤ)).toNat = 1074 - scale d by omega] at hpow
  rw [valueQ_eq, ulp, Frac.toQ, real]
  push_cast
  rw [hpow, ← mul_assoc, mul_div_cancel_right₀ _ (by positivity), ← mul_assoc]
  cases signBit d <;> simp

theorem real_den_pos (d : Double) : 0 < (real d).den := Nat.two_pow_pos _

theorem tempArg_toQ (d : Double) : (tempArg d).toQ = 100 * valueQ d + 27315 := by
  have hden : ((real d).den : ℚ) ≠ 0 := by exact_mod_cast (real_den_pos d).ne'
  rw [← real_toQ, Frac.toQ, Frac.toQ, tempArg, Config.tempScale, Config.tempOffset]
  push_cast
  field_simp

theorem qArg_toQ (d : Double) : (qArg d).toQ = valueQ d * 65536 := by
  rw [← real_toQ, Frac.toQ, Frac.toQ, qArg, Config.qScale]
  push_cast
  ring

/-- The rounding of the encoders is rha over the rationals (R9). -/
theorem rha_eq_rhaQ {x : Frac} (hden : 0 < x.den) : rha x = rhaQ x.toQ := by
  have hd : (0 : ℚ) < x.den := by exact_mod_cast hden
  have hfloor : (((2 * x.num.natAbs + x.den) / (2 * x.den) : ℕ) : ℤ) = ⌊|x.toQ| + 1 / 2⌋ := by
    have hq : |x.toQ| + 1 / 2 = ((2 * x.num.natAbs + x.den : ℕ) : ℚ) / (2 * x.den : ℕ) := by
      rw [Frac.toQ, abs_div, abs_of_pos hd]
      push_cast
      rw [Nat.cast_natAbs]
      push_cast
      field_simp
    rw [hq, Rat.floor_natCast_div_natCast]
    rfl
  unfold rha rhaQ
  simp only [hfloor]
  by_cases hneg : x.num < 0
  · have hq : x.toQ < 0 := div_neg_of_neg_of_pos (by exact_mod_cast hneg) hd
    rw [if_pos hneg, if_pos hq, abs_of_neg hq]
  · have hq : 0 ≤ x.toQ := div_nonneg (by exact_mod_cast not_lt.1 hneg) hd.le
    rw [if_neg hneg, if_neg hq.not_gt, abs_of_nonneg hq]

/-- The two infinities, by their sign (R9). -/
theorem isInf_iff {d : Double} : isInf d = true ↔ d = posInf ∨ d = negInf := by
  simp only [isInf, Bool.and_eq_true, beq_iff_eq, expBits_eq, fracBits_eq, posInf, negInf, ← BitVec.toNat_inj,
    BitVec.toNat_ofNat]
  have := d.isLt
  omega

/-- A pattern is one of the two infinities, or none. -/
theorem infinite_cases (d : Double) : d = posInf ∨ d = negInf ∨ (isInf d = false ∧ d ≠ posInf ∧ d ≠ negInf) := by
  cases hinf : isInf d with
  | true => exact (isInf_iff.1 hinf).imp_right .inl
  | false => exact .inr (.inr ⟨rfl, not_or.1 fun h => by simp [isInf_iff.2 h] at hinf⟩)

/-- ENCT's encoder follows the rule of R121. -/
theorem encTemp_eq_rule (d : Double) : encTemp d = encTempRule d := by
  have hx : rha (tempArg d) = rhaQ (100 * valueQ d + 27315) := by
    rw [rha_eq_rhaQ (x := tempArg d) (real_den_pos d), tempArg_toQ]
  unfold encTemp encTempRule
  rw [hx]
  obtain rfl | rfl | ⟨hinf, hpos, hneg⟩ := infinite_cases d
  · rfl
  · rfl
  · simp only [hpos, hneg, hinf, if_false, Bool.false_eq_true, gt_iff_lt]

/-- ENCQ's encoder follows the rule of R123. -/
theorem encQ_eq_rule (d : Double) : encQ d = encQRule d := by
  have hx : rha (qArg d) = rhaQ (valueQ d * 65536) := by
    rw [rha_eq_rhaQ (x := qArg d) (real_den_pos d), qArg_toQ]
  unfold encQ encQRule
  rw [hx]
  obtain rfl | rfl | ⟨hinf, hpos, hneg⟩ := infinite_cases d
  · rfl
  · rfl
  · simp only [hpos, hneg, hinf, if_false, Bool.false_eq_true, gt_iff_lt]

/-! ### ENCT and ENCQ -/

/-- Two bytes of a u16 (R7). -/
theorem leBytes_two (r : Half) : leBytes 2 r = [r.extractLsb' 0 8, r.extractLsb' 8 8] := by
  refine List.ext_getElem? fun k => ?_
  rw [leBytes_getElem?]
  match k with
  | 0 | 1 => rfl
  | k + 2 => simp

theorem exec_enct {a : FSel} (ha : a.isTempSel = true) (s : State) :
    exec (.enct a) s = .next (raiseRangeIf (encTemp s.farg).2
      (putTemp a (encTemp s.farg).1 { s with ires := (encTemp s.farg).1.setWidth 32 })) := by
  rw [exec, execEnct, if_pos ha]

theorem exec_encq {a : FSel} (ha : a.isQSel = true) (s : State) :
    exec (.encq a) s = .next (raiseRangeIf (encQ s.farg).2
      (putQ a (encQ s.farg).1 { s with ires := (encQ s.farg).1 })) := by
  rw [exec, execEncq, if_pos ha]

/-- Settles O51: the encoder is the rule, and the temperature field is stored to for TEMP alone. -/
theorem enctEncodesTemperature : Obligations.EnctEncodesTemperature := by
  intro s a ha
  rw [← encTemp_eq_rule, ← leBytes_two]
  obtain rfl | rfl := ha
  · refine ⟨_, exec_enct rfl s, fun _ => ?_, fun h => (nomatch h), ?_⟩ <;> rw [raiseRangeIf_eq]
    · exact pktPut_stored 10 _ s
    · rfl
  · refine ⟨_, exec_enct rfl s, fun h => (nomatch h), fun _ x => ?_, ?_⟩ <;> rw [raiseRangeIf_eq] <;> rfl

/-- ENCQ with a field stores there, and clears VVALID (R124). -/
theorem exec_encq_field {a : FSel} {off : Nat} (h : qoff a = some off) (s : State) :
    exec (.encq a) s = .next (raiseRangeIf (encQ s.farg).2
      (pktPut off (leBytes 4 (encQ s.farg).1) { s with ires := (encQ s.farg).1 })) := by
  rw [exec_encq (isQSel_of_qoff h), putQ_field h]

theorem eq_arg_of_qoff_none {a : FSel} (ha : a ≠ .temp) (h : qoff a = none) : a = .arg := by
  cases a with
  | temp => exact absurd rfl ha
  | arg => rfl
  | gyro0 | gyro1 | gyro2 | accel0 | accel1 | accel2 => cases h

/-- Settles O52: the encoder is the rule, and a field is stored to for every selector but ARG. -/
theorem encqEncodesFixedPoint : Obligations.EncqEncodesFixedPoint := by
  refine ⟨qoff_qFields, fun s a ha => ?_⟩
  rw [← encQ_eq_rule, ← leBytes_eq_lanes]
  cases hoff : qoff a with
  | some off =>
    have harg : a ≠ .arg := by
      rintro rfl
      cases hoff
    refine ⟨_, exec_encq_field hoff s, fun off' h => ?_, fun h => absurd h harg, ?_⟩ <;> rw [raiseRangeIf_eq]
    · cases h
      exact pktPut_stored off _ s
    · rw [if_neg harg]
      rfl
  | none =>
    obtain rfl := eq_arg_of_qoff_none ha hoff
    refine ⟨_, exec_encq rfl s, fun off' h => (nomatch h), fun _ x => ?_, ?_⟩ <;> rw [raiseRangeIf_eq] <;> rfl

/-! ### What encodes without RANGE -/

theorem isNaN_of_isFinite {d : Double} (h : isFinite d) : isNaN d = false := by
  simp [isNaN, h]

theorem isInf_of_isFinite {d : Double} (h : isFinite d) : isInf d = false := by
  simp [isInf, h]

/-- What lies less than half from an integer is rounded to it. -/
theorem rhaQ_of_near {x : ℚ} {n : ℤ} (h : |x - n| < 1 / 2) : rhaQ x = n := by
  obtain ⟨hlo, hhi⟩ := abs_lt.1 h
  unfold rhaQ
  split
  · rw [neg_eq_iff_eq_neg, Int.floor_eq_iff]
    push_cast
    constructor <;> linarith
  · rw [Int.floor_eq_iff]
    constructor <;> linarith

/-- A temperature less than half a hundredth from a raw value encodes to it (R121). -/
theorem encTemp_of_near {d : Double} {t : Half} (hfin : isFinite d)
    (h : |100 * valueQ d + 27315 - t.toNat| < 1 / 2) : encTemp d = (t, false) := by
  have ht := t.isLt
  have hx : rhaQ (100 * valueQ d + 27315) = (t.toNat : ℤ) := rhaQ_of_near (by exact_mod_cast h)
  rw [encTemp_eq_rule, encTempRule, isNaN_of_isFinite hfin, isInf_of_isFinite hfin]
  simp only [hx, Bool.false_eq_true, if_false]
  rw [if_neg (by omega), if_neg (by omega), BitVec.ofInt_natCast, BitVec.ofNat_toNat, BitVec.setWidth_eq]

/-- A value less than half of 1/65536 from a raw one encodes to it (R123). -/
theorem encQ_of_near {d : Double} {q : Word} (hfin : isFinite d)
    (h : |valueQ d * 65536 - s32 q| < 1 / 2) : encQ d = (q, false) := by
  have hx : rhaQ (valueQ d * 65536) = s32 q := rhaQ_of_near h
  have hlo : -2 ^ 31 ≤ s32 q := q.le_toInt
  have hhi : s32 q < 2 ^ 31 := q.toInt_lt
  rw [encQ_eq_rule, encQRule, isNaN_of_isFinite hfin, isInf_of_isFinite hfin]
  simp only [hx, Bool.false_eq_true, if_false]
  rw [if_neg (by omega), if_neg (by omega), s32, BitVec.ofInt_toInt]

/-- Settles O55: the rounding error of `celsius` is far below half a hundredth. -/
theorem temperatureRoundTrip : Obligations.TemperatureRoundTrip := by
  intro t
  have herr := abs_le.1 ((celsius_isNearest t).abs_sub_le (abs_exactCelsius_le t))
  obtain ⟨hfin, -⟩ := celsius_isNearest t
  refine encTemp_of_near hfin (abs_lt.2 ⟨?_, ?_⟩) <;> linarith

/-- Settles O56: `q16` is exact. -/
theorem fixedPointRoundTrip : Obligations.FixedPointRoundTrip := by
  intro q
  obtain ⟨hfin, -⟩ := q16_isNearest q
  refine encQ_of_near hfin ?_
  rw [valueQ_q16, div_mul_cancel₀ _ (by norm_num), sub_self, abs_zero]
  norm_num

/-- Settles O58: a NaN and the infinities are the rule's own rows, and a zero or subnormal is next to the raw value of
0. -/
theorem specialEncodeInputs : Obligations.SpecialEncodeInputs := by
  refine ⟨fun d hnan => ?_, rfl, rfl, rfl, rfl, fun d hexp => ?_⟩
  · rw [encTemp, encQ, if_pos hnan, if_pos hnan]
    exact ⟨rfl, rfl⟩
  · have hfin : isFinite d := by rw [isFinite, hexp]; norm_num
    obtain ⟨hlo, hhi⟩ := abs_lt.1 (abs_valueQ_lt hexp)
    have hq : s32 0x00000000#32 = 0 := rfl
    refine ⟨encTemp_of_near hfin ?_, encQ_of_near hfin ?_⟩
    · rw [BitVec.toNat_ofNat, abs_lt]
      constructor <;> norm_num <;> linarith
    · rw [hq, abs_lt]
      constructor <;> norm_num <;> linarith

end Sys2Proof.Machine
end

section
/-! SUPPORT. The packet round trip (R131): each command of the rebuild stores the packet's own bytes at the next offset,
so the part of the buffer that agrees with the packet grows until it is the packet. -/

namespace Sys2Proof.Machine

/-! ### The checks on equal bytes -/

/-- The CRC stage sees the 40 bytes only. -/
theorem crcStage_congr {m m' : Memory} (h : ∀ a < 40, m'.byte? a = m.byte? a) : m'.crcStage = m.crcStage := by
  have hbody : m'.readBytes 0 Config.crcCover = m.readBytes 0 Config.crcCover :=
    readBytes_congr fun k hk => h (0 + k) (by simp only [Config.crcCover] at hk; omega)
  have hfield : m'.readBytes 36 4 = m.readBytes 36 4 := readBytes_congr fun k hk => h (36 + k) (by omega)
  unfold Memory.crcStage Memory.packetCrc Memory.crc32Field Memory.le32
  rw [hbody, hfield]

/-- So do the three checks together (R104). -/
theorem classify_congr {m m' : Memory} (h : ∀ a < 40, m'.byte? a = m.byte? a) : m'.classify = m.classify := by
  unfold Memory.classify
  rw [hdrOK_congr fun a ha => h a (by omega), seqOK_congr fun a ha => h a (by omega), crcStage_congr h]

/-! ### The rebuilt part -/

/-- A buffer agrees with the packet below `n`, and on bytes 4 to 9, which the host copies (R131). -/
def Rebuilt (p m : Memory) (n : Nat) : Prop := ∀ k, k < n ∨ (4 ≤ k ∧ k < 10) → m.byte? k = p.byte? k

/-- Storing what the packet holds next extends the part that agrees. -/
theorem Rebuilt.store {p m m' : Memory} {n : Nat} {bs : List Byte} (h : Rebuilt p m n) (hp : holds p n bs)
    (hs : stored m m' n bs) : Rebuilt p m' (n + bs.length) := by
  intro k hk
  rw [hs]
  split
  · rename_i hin
    rw [← hp (k - n) (by omega), Nat.add_sub_cancel' hin.1]
  · exact h k (by omega)

/-- Once the first four bytes agree, the host's six carry on to byte 10. -/
theorem Rebuilt.copied {p m : Memory} (h : Rebuilt p m 4) : Rebuilt p m 10 := fun k hk => h k (by omega)

/-- Commands take every state whose buffer agrees below `n` to one whose buffer agrees below `n'`. -/
def Rebuilds (p : Memory) (cs : List (Instr × Option Double)) (n n' : Nat) : Prop :=
  ∀ s : State, Rebuilt p s.pkt n → ∃ t, runCommands cs s = .next t ∧ Rebuilt p t.pkt n'

theorem Rebuilds.nil (p : Memory) (n : Nat) : Rebuilds p [] n n := fun s h => ⟨s, rfl, h⟩

/-- A command that stores what the packet holds at `n`, and then the rest. -/
theorem Rebuilds.cons {p : Memory} {i : Instr} {d : Option Double} {cs : List (Instr × Option Double)} {n n' : Nat}
    {bs : List Byte} (hp : holds p n bs)
    (hi : ∀ s : State, s.farg = d.getD s.farg → Rebuilt p s.pkt n → ∃ t, exec i s = .next t ∧ stored s.pkt t.pkt n bs)
    (hcs : Rebuilds p cs (n + bs.length) n') : Rebuilds p ((i, d) :: cs) n n' := by
  intro s h
  obtain ⟨u, hexec, hstored⟩ := hi { s with farg := d.getD s.farg } (by cases d <;> rfl) h
  obtain ⟨t, hrun, ht⟩ := hcs u (h.store hp hstored)
  refine ⟨t, ?_, ht⟩
  rw [runCommands, hexec]
  exact hrun

/-- After the first four bytes, the rest goes on at byte 10. -/
theorem Rebuilds.copied {p : Memory} {cs : List (Instr × Option Double)} {n' : Nat} (h : Rebuilds p cs 10 n') :
    Rebuilds p cs 4 n' := fun s hs => h s hs.copied

/-! ### The commands of the rebuild -/

@[simp] theorem raiseRangeIf_pkt (f : Bool) (s : State) : (raiseRangeIf f s).pkt = s.pkt := by
  rw [raiseRangeIf_eq]

/-- ENCT TEMP of a decoded temperature stores its bytes (R128). -/
theorem enct_celsius_stores {s : State} {t : Half} (h : s.farg = celsius t) :
    ∃ u, exec (.enct .temp) s = .next u ∧ stored s.pkt u.pkt 10 (leBytes 2 t) := by
  have henc : encTemp s.farg = (t, false) := by rw [h, temperatureRoundTrip]
  refine ⟨_, exec_enct rfl s, ?_⟩
  rw [henc, raiseRangeIf_pkt]
  exact pktPut_stored 10 _ s

/-- ENCQ of a decoded field stores its bytes (R129). -/
theorem encq_q16_stores {s : State} {a : FSel} {off : Nat} {v : Word} (hoff : qoff a = some off)
    (h : s.farg = q16 (s32 v)) :
    ∃ u, exec (.encq a) s = .next u ∧ stored s.pkt u.pkt off (leBytes 4 v) := by
  have henc : encQ s.farg = (v, false) := by rw [h, fixedPointRoundTrip]
  refine ⟨_, exec_encq_field hoff s, ?_⟩
  rw [henc, raiseRangeIf_pkt]
  exact pktPut_stored off _ s

/-- SEAL of a buffer whose first 36 bytes are the packet's stores the packet's checksum (R97). -/
theorem seal_stores {p : Memory} {s : State} {bs : List Byte} (hread : p.readBytes 0 36 = .ok bs)
    (h : Rebuilt p s.pkt 36) :
    ∃ u, exec .sealPkt s = .next u ∧ stored s.pkt u.pkt 36 (leBytes 4 (crc32 bs)) := by
  obtain ⟨hlen, hbytes⟩ := Memory.readBytes_ok.1 hread
  have hholds : holds s.pkt 0 bs := fun k hk => (h (0 + k) (by omega)).trans (hbytes k (hlen ▸ hk))
  obtain ⟨seals, -⟩ := sealWritesPacketCrc s
  obtain ⟨u, hexec, hstored, -⟩ := seals bs hlen hholds
  rw [← leBytes_eq_lanes] at hstored
  exact ⟨u, hexec, hstored⟩

/-! ### What the packet decodes to -/

/-- The value that CVTT TEMP gives is that of the packet's temperature bytes (R114). -/
theorem cvtt_temp_next {p : State} {d : Double} (h : exec (.cvtt .temp) p = .next { p with fres := d }) :
    ∃ t, holds p.pkt 10 (leBytes 2 t) ∧ d = celsius t := by
  rw [exec_cvtt_temp] at h
  obtain ⟨t, hread, ht⟩ := withRead_next.1 h
  exact ⟨t, le16_ok_iff.1 hread, (congrArg State.fres (Host.Outcome.next.inj ht)).symm⟩

/-- The value that CVTQ gives for a field is that of its bytes (R117). -/
theorem cvtq_field_next {p : State} {a : FSel} {off : Nat} {d : Double} (hoff : qoff a = some off)
    (h : exec (.cvtq a) p = .next { p with fres := d }) :
    ∃ v, holds p.pkt off (leBytes 4 v) ∧ d = q16 (s32 v) := by
  rw [exec_cvtq_field hoff] at h
  obtain ⟨v, hread, ht⟩ := withRead_next.1 h
  exact ⟨v, le32_ok_iff.1 hread, (congrArg State.fres (Host.Outcome.next.inj ht)).symm⟩

/-- ENCQ of what CVTQ gave for a field rebuilds the field. -/
theorem Rebuilds.encq {p : State} {a : FSel} {off n' : Nat} {d : Double} {cs : List (Instr × Option Double)}
    (hoff : qoff a = some off) (h : exec (.cvtq a) p = .next { p with fres := d })
    (hcs : Rebuilds p.pkt cs (off + 4) n') : Rebuilds p.pkt ((.encq a, some d) :: cs) off n' := by
  obtain ⟨v, hholds, rfl⟩ := cvtq_field_next hoff h
  exact .cons hholds (fun s hs _ => encq_q16_stores hoff hs) (by rwa [leBytes_length])

/-- ENCT of what CVTT gave for the temperature rebuilds it. -/
theorem Rebuilds.enct {p : State} {n' : Nat} {d : Double} {cs : List (Instr × Option Double)}
    (h : exec (.cvtt .temp) p = .next { p with fres := d })
    (hcs : Rebuilds p.pkt cs 12 n') : Rebuilds p.pkt ((.enct .temp, some d) :: cs) 10 n' := by
  obtain ⟨t, hholds, rfl⟩ := cvtt_temp_next h
  exact .cons hholds (fun s hs _ => enct_celsius_stores hs) hcs

/-- SETHDR rebuilds the header of a packet that has the right one. -/
theorem Rebuilds.sethdr {p : Memory} {n' : Nat} {cs : List (Instr × Option Double)} (h : p.hdrOK = .ok true)
    (hcs : Rebuilds p cs 2 n') : Rebuilds p ((.sethdr, none) :: cs) 0 n' := by
  refine .cons (hdrOK_true.1 h) (fun s _ _ => ?_) hcs
  obtain ⟨t, hexec, hstored, -⟩ := sethdrWritesMagic s
  exact ⟨t, hexec, hstored⟩

/-- SETSEQ of the packet's sequencer rebuilds the pair of a packet whose pair is right. -/
theorem Rebuilds.setseq {p : Memory} {q : Byte} {n' : Nat} {cs : List (Instr × Option Double)}
    (h : p.seqOK = .ok true) (hq : p.byte? 2 = some q) (hcs : Rebuilds p cs 4 n') :
    Rebuilds p ((.setseq q, none) :: cs) 2 n' := by
  obtain ⟨q', hpair⟩ := seqOK_true.1 h
  obtain rfl : q' = q := Option.some.inj ((holds_pair.1 hpair).1.symm.trans hq)
  refine .cons hpair (fun s _ _ => ?_) hcs
  obtain ⟨t, hexec, hstored, -⟩ := setseqWritesPair s q'
  exact ⟨t, hexec, hstored⟩

/-- SEAL rebuilds the crc32 field of a packet that has the right one. -/
theorem Rebuilds.sealPkt {p : Memory} {bs : List Byte} (hread : p.readBytes 0 36 = .ok bs)
    (hfield : p.crc32Field = .ok (crc32 bs)) : Rebuilds p [(.sealPkt, none)] 36 40 :=
  .cons (le32_ok_iff.1 hfield) (fun _ _ h => seal_stores hread h) (.nil p 40)

/-- Settles O59: the ten commands rebuild the packet from byte 0 to byte 40, and VALIDATE sees those bytes alone. -/
theorem packetRoundTrip : Obligations.PacketRoundTrip := by
  intro p u s q f hvalidate hok htemp hfields hq hcopied
  obtain ⟨⟨r, c⟩, hclass, hu⟩ := withRead_next.1 hvalidate
  cases hu
  obtain rfl : r = .ok := hok
  obtain ⟨hhdr, hseq, bs, hread, hfield⟩ := classify_eq_ok hclass
  have hencq {a : FSel} {off : Nat} {cs : List (Instr × Option Double)} (htmp : a ≠ .temp) (harg : a ≠ .arg)
      (hoff : qoff a = some off) : Rebuilds p.pkt cs (off + 4) 40 →
      Rebuilds p.pkt ((.encq a, some (f a)) :: cs) off 40 := .encq hoff (hfields a htmp harg)
  have hrebuild : Rebuilds p.pkt _ 0 40 :=
    .sethdr hhdr <| .setseq hseq hq <| .copied <| .enct htemp <|
      hencq (a := .gyro0) nofun nofun rfl <| hencq (a := .gyro1) nofun nofun rfl <|
      hencq (a := .gyro2) nofun nofun rfl <| hencq (a := .accel0) nofun nofun rfl <|
      hencq (a := .accel1) nofun nofun rfl <| hencq (a := .accel2) nofun nofun rfl <|
      .sealPkt hread hfield
  obtain ⟨t, hrun, ht⟩ := hrebuild s fun k hk => hcopied k (by omega) (by omega)
  have hbytes : ∀ k < 40, t.pkt.byte? k = p.pkt.byte? k := fun k hk => ht k (.inl hk)
  exact ⟨t, hrun, hbytes, exec_validate_of_classify ((classify_congr hbytes).trans hclass)⟩

end Sys2Proof.Machine
end

section
/-! SUPPORT. Errors and the interrupt (R132 to R143): what raises an error flag and what changes CTRL, each said once
for a command, a host access and a step; the causes of a flag and of an edge of irq are read off these. -/

namespace Sys2Proof.Machine

/-! ### Bad accesses -/

/-- A bad write raises ERR_ACC and stores nothing (R72, R134). -/
theorem hostWrite_bad {off : Nat} {n : Width} {v : Word} {s : State} (hacc : accOK off n .write = false) :
    hostWrite off n v s = .next (raiseErr .errAcc s) := by
  simp [hostWrite_next, hacc]

/-- Settles O26. -/
theorem badAccessRaisesErrAcc : Obligations.BadAccessRaisesErrAcc := by
  refine ⟨fun s off op rest hturn hacc => ?_, by decide⟩
  rw [step_host hturn]
  cases op with
  | read n => exact hostRead_bad hacc
  | write n v => exact hostWrite_bad hacc

/-! ### Which error flags rise -/

/-- No error flag rises, or one flag that has a cause is raised and the other three keep their values. -/
inductive FlagRise (cause : ErrFlag → Prop) (st st' : Status) : Prop where
  | none (h : ∀ f, st'.flag f = true → st.flag f = true)
  | raised (g : ErrFlag) (hcause : cause g) (h : ∀ f, st'.flag f = (st.raise g).flag f)

/-- A flag that rises has its cause, and no other rises with it (R139). -/
theorem FlagRise.cause_of_rise {cause : ErrFlag → Prop} {st st' : Status} (h : FlagRise cause st st') {f : ErrFlag}
    (hlow : st.flag f = false) (hhigh : st'.flag f = true) :
    cause f ∧ ∀ g, st.flag g = false → st'.flag g = true → g = f := by
  cases h with
  | none h => simp [h f hhigh] at hlow
  | raised g hcause h =>
    have hrise : ∀ f', st.flag f' = false → st'.flag f' = true → f' = g := fun f' hlow' hhigh' => by
      simpa [h, Status.flag_raise, hlow'] using hhigh'
    obtain rfl := hrise f hlow hhigh
    exact ⟨hcause, hrise⟩

theorem FlagRise.imp {p q : ErrFlag → Prop} {st st' : Status} (hpq : ∀ g, p g → q g) (h : FlagRise p st st') :
    FlagRise q st st' := by
  cases h with
  | none h => exact .none h
  | raised g hcause h => exact .raised g (hpq g hcause) h

/-- A status with the same four flags raises none. -/
theorem FlagRise.of_eq {cause : ErrFlag → Prop} {st st' : Status} (h : ∀ f, st'.flag f = st.flag f) :
    FlagRise cause st st' := .none fun f hf => h f ▸ hf

/-- Rejecting a command raises ERR_ILL and no other flag (R136). -/
theorem rejectCommand_raises (s : State) (f : ErrFlag) :
    (rejectCommand s).status.flag f = (s.status.raise .errIll).flag f := by
  cases f <;> rfl

/-- A store to PKTBUF touches no error flag (R73). -/
theorem pktPut_flag (off : Nat) (bs : List Byte) (s : State) (f : ErrFlag) :
    (pktPut off bs s).status.flag f = s.status.flag f := by
  cases f <;> rfl

/-! ### Commands -/

/-- The command encodes a value that the real-number rule of its encoder puts out of range (R121, R123). -/
def encodesOutOfRange (d : Double) : Instr → Bool
  | .enct _ => (encTempRule d).2
  | .encq _ => (encQRule d).2
  | _ => false

theorem encodesOutOfRange_iff {d : Double} {i : Instr} :
    encodesOutOfRange d i = true ↔
      ∃ a, (i = .enct a ∧ (encTempRule d).2 = true) ∨ (i = .encq a ∧ (encQRule d).2 = true) := by
  cases i <;> simp [encodesOutOfRange]

/-- RANGE stays set, or is set by the flag given (R137). -/
theorem raiseRangeIf_range (raised : Bool) (s : State) :
    (raiseRangeIf raised s).status.range = (s.status.range || raised) := by
  rw [raiseRangeIf_eq]

/-- The store of ENCT leaves RANGE (R122). -/
theorem putTemp_range (a : FSel) (r : Half) (s : State) : (putTemp a r s).status.range = s.status.range := by
  cases a <;> rfl

/-- The store of ENCQ leaves RANGE (R124). -/
theorem putQ_range (a : FSel) (r : Word) (s : State) : (putQ a r s).status.range = s.status.range := by
  cases a <;> rfl

/-- A command raises RANGE exactly when it encodes a value out of range (R137). -/
theorem exec_range {i : Instr} {s t : State} (h : exec i s = .next t) :
    t.status.range = (s.status.range || encodesOutOfRange s.farg i) := by
  cases i with
  | nop | sethdr | setseq imm8 =>
    cases h
    exact (Bool.or_false _).symm
  | validate | crcpkt | sealPkt =>
    obtain ⟨v, -, ht⟩ := withRead_next.1 h
    cases ht
    exact (Bool.or_false _).symm
  | cvtt a =>
    rw [exec, execCvtt] at h
    split at h
    · obtain ⟨v, -, ht⟩ := withRead_next.1 h
      cases ht
      exact (Bool.or_false _).symm
    · cases h
  | cvtq a =>
    rw [exec, execCvtq] at h
    split at h
    · obtain ⟨v, -, ht⟩ := withRead_next.1 h
      cases ht
      exact (Bool.or_false _).symm
    · cases h
  | enct a =>
    rw [exec, execEnct] at h
    split at h
    · cases h
      rw [raiseRangeIf_range, putTemp_range, encTemp_eq_rule]
      rfl
    · cases h
  | encq a =>
    rw [exec, execEncq] at h
    split at h
    · cases h
      rw [raiseRangeIf_range, putQ_range, encQ_eq_rule]
      rfl
    · cases h

/-- A command raises RANGE for a value out of range, and no other flag (R133, R137). -/
theorem exec_flagRise {i : Instr} {s t : State} (h : exec i s = .next t) :
    FlagRise (fun g => g = .range ∧ encodesOutOfRange s.farg i = true) s.status t.status := by
  obtain ⟨-, -, -, -, -, -, -, -, -, hill, hbusy, hacc, -⟩ := commandFrame i s t h
  have hrange := exec_range h
  cases hout : encodesOutOfRange s.farg i with
  | false =>
    rw [hout, Bool.or_false] at hrange
    refine .of_eq fun f => ?_
    cases f <;> assumption
  | true =>
    rw [hout, Bool.or_true] at hrange
    refine .raised .range ⟨rfl, rfl⟩ fun f => ?_
    cases f <;> assumption

/-! ### Host accesses -/

/-- What an access must be to raise a flag (R133). -/
def accessCause (off : Nat) (op : BusOp) (s : State) : ErrFlag → Prop
  | .errAcc => accOK off op.width op.dir = false
  | .errBusy => s.status.busy = true ∧ ∃ n v, op = .write n v ∧ accOK off n .write = true ∧ guarded off
  | .errIll => s.status.busy = false ∧ off = 0x30 ∧ ∃ w, op = .write .w4 w ∧ legal w = false
  | .range => False

/-- A host access raises no flag but for its cause (R72, R134 to R136). -/
theorem hostAccess_flagRise {off : Nat} {op : BusOp} {s t : State} (h : hostAccess off op s = .next t) :
    FlagRise (accessCause off op s) s.status t.status := by
  cases op with
  | read n =>
    obtain ⟨-, -, v, -, rfl⟩ | ⟨-, -, rfl⟩ | ⟨hbad, rfl⟩ := hostRead_next.1 h
    · exact .of_eq fun _ => rfl
    · exact .of_eq fun _ => rfl
    · exact .raised .errAcc hbad fun _ => rfl
  | write n v =>
    rw [hostAccess] at h
    cases hacc : accOK off n .write with
    | false =>
      rw [hostWrite_bad hacc] at h
      cases h
      exact .raised .errAcc hacc fun _ => rfl
    | true =>
      rw [hostWrite_next, if_pos hacc] at h
      cases h
      obtain ⟨hguard, hbusy, hw⟩ | ⟨-, -, hw⟩ | ⟨-, -, -, -, hw⟩ | ⟨hoff, rfl, hfree, hlegal, hw⟩ | ⟨-, -, hw⟩
        | ⟨-, -, hw⟩ | ⟨-, -, hw⟩ | ⟨-, -, hw⟩ | ⟨-, -, -, hw⟩ | ⟨-, -, -, hw⟩ | ⟨-, -, -, hw⟩ :=
        permittedWrite_cases v s hacc <;> rw [hw]
      · exact .raised .errBusy ⟨hbusy, n, v, rfl, hacc, hguard⟩ fun _ => rfl
      · exact .of_eq (pktPut_flag off _ s)
      · exact .of_eq (acceptCommand_flag v s)
      · exact .raised .errIll ⟨hfree, hoff, v, rfl, hlegal⟩ (rejectCommand_raises s)
      · exact .none fun f hf => by
          rw [Status.flag_write, Bool.and_eq_true] at hf
          exact hf.1
      all_goals exact .of_eq fun _ => rfl

/-! ### Steps -/

/-- The cause that R133's table gives each flag. -/
def errorCause (s : State) : ErrFlag → Prop
  | .errAcc => ∃ off op rest, hostNext s off op rest ∧ accOK off op.width op.dir = false
  | .errBusy => s.status.busy = true ∧ ∃ off n v rest,
      hostNext s off (.write n v) rest ∧ accOK off n .write = true ∧ guarded off
  | .errIll => s.status.busy = false ∧ ∃ w rest, hostNext s 0x30 (.write .w4 w) rest ∧ legal w = false
  | .range => s.status.busy = true ∧ (∃ rest, blockNext s rest) ∧ ∃ a,
      (decode s.pend = .ok (.enct a) ∧ (encTempRule s.farg).2 = true)
        ∨ (decode s.pend = .ok (.encq a) ∧ (encQRule s.farg).2 = true)

/-- The cause in an access is the table's cause when the host makes that access. -/
theorem errorCause_of_accessCause {s : State} {off : Nat} {op : BusOp} {rest : List Event}
    (hturn : hostNext s off op rest) {g : ErrFlag} (h : accessCause off op s g) : errorCause s g := by
  cases g with
  | errAcc => exact ⟨off, op, rest, hturn, h⟩
  | errBusy =>
    obtain ⟨hbusy, n, v, rfl, hacc, hguard⟩ := h
    exact ⟨hbusy, off, n, v, rest, hturn, hacc, hguard⟩
  | errIll =>
    obtain ⟨hfree, rfl, w, rfl, hlegal⟩ := h
    exact ⟨hfree, w, rest, hturn, hlegal⟩
  | range => exact h.elim

/-- The completion of a command that encodes a value out of range is the table's cause of RANGE. -/
theorem errorCause_range {s : State} {rest : List Event} {i : Instr} (hturn : blockNext s rest)
    (hbusy : s.status.busy = true) (hdecode : decode s.pend = .ok i) (hout : encodesOutOfRange s.farg i = true) :
    errorCause s .range := by
  obtain ⟨a, ⟨rfl, hrule⟩ | ⟨rfl, hrule⟩⟩ := encodesOutOfRange_iff.1 hout
  · exact ⟨hbusy, ⟨rest, hturn⟩, a, .inl ⟨hdecode, hrule⟩⟩
  · exact ⟨hbusy, ⟨rest, hturn⟩, a, .inr ⟨hdecode, hrule⟩⟩

/-- The completion raises what its command raises (R84). -/
theorem finish_flagRise {cause : ErrFlag → Prop} {st : Status} {u : State} (h : FlagRise cause st u.status) :
    FlagRise cause st (finish u).status := by
  cases h with
  | none h => exact .none fun f hf => h f (finish_flag u f ▸ hf)
  | raised g hcause h => exact .raised g hcause fun f => (finish_flag u f).trans (h f)

/-- Every step raises no flag, or one for the table's cause. -/
theorem step_flagRise {s t : State} (h : step s = .next t) : FlagRise (errorCause s) s.status t.status := by
  obtain ⟨-, -, rfl⟩ | ⟨rest, i, u, hturn, hbusy, hdecode, hexec, rfl⟩ | ⟨rest, -, -, rfl⟩ | ⟨_, _, rest, -, -, rfl⟩
    | ⟨off, op, rest, hturn, hhost⟩ | ⟨rest, -, rfl⟩ := step_cases h
  · exact .of_eq fun _ => rfl
  · refine finish_flagRise ((exec_flagRise hexec).imp ?_)
    rintro _ ⟨rfl, hout⟩
    exact errorCause_range hturn hbusy hdecode hout
  · exact .of_eq fun _ => rfl
  · exact .of_eq fun _ => rfl
  · exact (hostAccess_flagRise hhost).imp fun g => errorCause_of_accessCause (s := s) hturn
  · exact .none fun f hf => by cases f <;> cases hf

/-- Settles O21: a step raises at most one flag, and for the table's cause. -/
theorem errorFlagCauses : Obligations.ErrorFlagCauses := by
  intro s t f h hlow hhigh
  obtain ⟨hcause, honly⟩ := (step_flagRise h).cause_of_rise hlow hhigh
  refine ⟨?_, honly⟩
  cases f <;> exact hcause

/-! ### CTRL and irq -/

/-- A host access keeps CTRL, or is a write of it that keeps STATUS (R72, R77). -/
theorem hostAccess_ctrl {off : Nat} {op : BusOp} {s t : State} (h : hostAccess off op s = .next t) :
    t.ctrl = s.ctrl
      ∨ ∃ v, off = 0x38 ∧ op = .write .w4 v ∧ t.ctrl = s.ctrl.write v ∧ t.status = s.status := by
  cases op with
  | read n =>
    obtain ⟨-, -, v, -, rfl⟩ | ⟨-, -, rfl⟩ | ⟨-, rfl⟩ := hostRead_next.1 h <;> exact .inl rfl
  | write n v =>
    rw [hostAccess, hostWrite_next] at h
    cases h
    split
    · rename_i hacc
      obtain ⟨-, -, hw⟩ | ⟨-, -, hw⟩ | ⟨-, -, -, -, hw⟩ | ⟨-, -, -, -, hw⟩ | ⟨-, -, hw⟩ | ⟨hoff, rfl, hw⟩ | ⟨-, -, hw⟩
        | ⟨-, -, hw⟩ | ⟨-, -, -, hw⟩ | ⟨-, -, -, hw⟩ | ⟨-, -, -, hw⟩ := permittedWrite_cases v s hacc <;> rw [hw]
      case inr.inr.inr.inr.inr.inl => exact .inr ⟨v, hoff, rfl, rfl, rfl⟩
      all_goals exact .inl rfl
    · exact .inl rfl

/-- The kinds of change a step makes to CTRL (R34, R77, R147). -/
inductive CtrlChange (s t : State) : Prop where
  | kept (h : t.ctrl = s.ctrl)
  | written (v : Word) (rest : List Event) (hturn : hostNext s 0x38 (.write .w4 v) rest)
      (hctrl : t.ctrl = s.ctrl.write v) (hstatus : t.status = s.status)
  | reset (rest : List Event) (hturn : s.agenda = .reset :: rest) (hctrl : t.ctrl = { ie := false })

/-- Every step changes CTRL in one of these ways. -/
theorem step_ctrl {s t : State} (h : step s = .next t) : CtrlChange s t := by
  obtain ⟨-, -, rfl⟩ | ⟨rest, i, u, -, -, -, hexec, rfl⟩ | ⟨rest, -, -, rfl⟩ | ⟨_, _, rest, -, -, rfl⟩
    | ⟨off, op, rest, hturn, hhost⟩ | ⟨rest, hturn, rfl⟩ := step_cases h
  · exact .kept rfl
  · obtain ⟨-, hctrl, -⟩ := commandFrame i _ u hexec
    exact .kept hctrl
  · exact .kept rfl
  · exact .kept rfl
  · obtain hkept | ⟨v, rfl, rfl, hctrl, hstatus⟩ := hostAccess_ctrl hhost
    · exact .kept hkept
    · exact .written v rest hturn hctrl hstatus
  · exact .reset rest hturn rfl

/-- irq is 1 when IE and DONE are (R33). -/
theorem irq_eq_true {s : State} : irq s = true ↔ s.ctrl.ie = true ∧ s.status.done = true := by
  simp [irq]

/-- With IE at 1, irq is DONE (R33). -/
theorem irq_of_ie {s : State} (h : s.ctrl.ie = true) : irq s = s.status.done := by
  simp [irq, h]

/-- With DONE at 1, irq is IE (R33). -/
theorem irq_of_done {s : State} (h : s.status.done = true) : irq s = s.ctrl.ie := by
  simp [irq, h]

/-- Settles O18: with CTRL kept an edge of irq is an edge of DONE; a write of CTRL keeps DONE, so irq follows the bit
written; and a reset leaves irq at 0. -/
theorem interruptChangesOnly : Obligations.InterruptChangesOnly := by
  intro s t h
  cases step_ctrl h with
  | kept hctrl =>
    obtain ⟨hrise, hfall⟩ := doneChangesOnly s t h
    refine ⟨fun hlow hhigh => ?_, fun hhigh hlow => ?_⟩
    · obtain ⟨hie, hdone⟩ := irq_eq_true.1 hhigh
      rw [hctrl] at hie
      rw [irq_of_ie hie] at hlow
      obtain ⟨hbusy, hturn⟩ | ⟨hfree, hturn⟩ := hrise hlow hdone
      · exact .inl ⟨hie, hbusy, hturn⟩
      · exact .inr (.inl ⟨hie, hfree, hturn⟩)
    · obtain ⟨hie, hdone⟩ := irq_eq_true.1 hhigh
      rw [irq_of_ie (hctrl ▸ hie)] at hlow
      exact (hfall hdone hlow).imp_right .inr
  | written v rest hturn hctrl hstatus =>
    have hie : t.ctrl.ie = v.getLsbD 0 := congrArg Ctrl.ie hctrl
    refine ⟨fun _ hhigh => ?_, fun hhigh hlow => ?_⟩
    · obtain ⟨hset, hdone⟩ := irq_eq_true.1 hhigh
      exact .inr (.inr ⟨hstatus ▸ hdone, v, rest, hturn, hie ▸ hset⟩)
    · obtain ⟨-, hdone⟩ := irq_eq_true.1 hhigh
      rw [irq_of_done (hstatus ▸ hdone)] at hlow
      exact .inr (.inl ⟨v, rest, hturn, hie ▸ hlow⟩)
  | reset rest hturn hctrl => exact ⟨by simp [irq, hctrl], fun _ _ => .inr (.inr ⟨rest, hturn⟩)⟩

end Sys2Proof.Machine
end

section
/-! SUPPORT. The reset event (R147): what the registers that are not storage read after it, and that the initial state
is what a reset leaves. -/

namespace Sys2Proof.Machine

/-! ### What a reset leaves -/

/-- After reset STATUS has BUSY = 0: no command is pending (R148). -/
@[simp] theorem Status.reset_busy : Status.reset.busy = false := rfl

/-- After reset no verdict is valid (R147). -/
@[simp] theorem Status.reset_vvalid : Status.reset.vvalid = false := rfl

/-- Every bit of STATUS reads 0 after reset (R75, R147). -/
@[simp] theorem statusValue_reset : statusValue Status.reset = 0#32 := by decide

/-- CTRL reads 0 where IE is 0 (R77). -/
@[simp] theorem ctrlValue_disabled : ctrlValue { ie := false } = 0#32 := by decide

/-- CRC_OUT reads 0 after reset, as CRC_ACC is the initial value of the CRC (R19, R147). -/
@[simp] theorem crcOut_resetEvent (s : State) : crcOut (resetEvent s) = 0#32 := by
  rw [crcOut, resetEvent_crcAcc, BitVec.xor_self]

/-- irq is 0 after reset (R33, R147). -/
@[simp] theorem irq_resetEvent (s : State) : irq (resetEvent s) = false := by
  rw [irq, resetEvent_ctrl, Bool.false_and]

/-- A reset of the initial state leaves the initial state (R158). -/
theorem resetEvent_initial : resetEvent State.reset = State.reset := rfl

/-- Settles O37: a reset event is read off by the rules of `resetEvent`, and so is the initial state, which is the
reset of itself. -/
theorem resetGivesTheResetValues : Obligations.ResetGivesTheResetValues := by
  refine ⟨fun s rest hturn => ⟨resetEvent (takeTurn rest s), step_reset hturn, ?_⟩, ?_⟩
  · simp
  · rw [← resetEvent_initial]
    simp

/-! ### The invariants of the initial state -/

/-- With no command pending, PEND may hold any word (R31). -/
theorem pendingLegal_of_not_busy {s : State} (h : s.status.busy = false) : pendingLegal s :=
  fun hbusy => absurd hbusy (by simp [h])

/-- With VVALID at 0, VRES says nothing of the buffer (R107). -/
theorem verdictCurrent_of_not_vvalid {s : State} (h : s.status.vvalid = false) : verdictCurrent s :=
  fun hvalid => absurd hvalid (by simp [h])

/-- +0.0 is among the values FRES may have (R120). -/
theorem fresNormal_of_zero {s : State} (h : s.fres = 0#64) : fresNormal s := .inl h

/-- Settles O14: the buffer is empty, no command is pending, no verdict is valid and FRES is +0.0. -/
theorem resetMeetsInvariants : Obligations.ResetMeetsInvariants :=
  ⟨State.reset_pkt_wf, pendingLegal_of_not_busy Status.reset_busy,
    verdictCurrent_of_not_vvalid Status.reset_vvalid, fresNormal_of_zero rfl⟩

end Sys2Proof.Machine
end
